-- ==== Sys2Proof/Word.lean ====
section
/-! DEFINITION. The word types of the model: a byte of a link, the four numbered links, a table of a fixed
number of cells, and the plain data that the commands of the part carry. -/

namespace Sys2Proof

/-- One character's eight data bits on a custody link (R186). -/
abbrev Byte := BitVec 8

/-- A link number, 0 to 3: time-lock, platform, count, carrier (chapter 10). -/
abbrev LinkId := Fin 4

/-- A chute number, 0 to 3 (00_scope, section 7). -/
abbrev ChuteId := Fin 4

/-- A compartment number, 0 to 47 (00_scope, section 7). -/
abbrev CompartmentId := Fin 48

/-- A roster index, 0 to 127 (R37). -/
abbrev DepositorId := Fin 128

/-- A table of exactly `n` like cells: the list of cells together with the proof of its length, so that no
table of another size can be built. -/
structure Table (α : Type) (n : Nat) where
  cells : List α
  size : cells.length = n
  deriving DecidableEq, Repr

/-- The cell numbered `i`. -/
def Table.get {α : Type} {n : Nat} (t : Table α n) (i : Fin n) : α :=
  t.cells[i.val]'(by rw [t.size]; exact i.isLt)

/-- The table with cell `i` replaced. -/
def Table.set {α : Type} {n : Nat} (t : Table α n) (i : Fin n) (a : α) : Table α n :=
  ⟨t.cells.set i.val a, by rw [List.length_set]; exact t.size⟩

/-- The table with `f` applied to every cell. -/
def Table.map {α β : Type} {n : Nat} (f : α → β) (t : Table α n) : Table β n :=
  ⟨t.cells.map f, by rw [List.length_map]; exact t.size⟩

/-- The table whose cell `i` is `f i`. -/
def Table.tabulate {α : Type} {n : Nat} (f : Fin n → α) : Table α n :=
  ⟨(List.finRange n).map f, by rw [List.length_map, List.length_finRange]⟩

/-- The table whose every cell is `a`. -/
def Table.fill {α : Type} {n : Nat} (a : α) : Table α n :=
  ⟨List.replicate n a, List.length_replicate⟩

/-- What the part reads from its lines when a start takes effect: the whole seconds the timebase counted while
the part was down (R183), the level of the four present lines, which receive lines are held low (R200), and
which door sensors report an open door (R157). -/
structure StartLines where
  downSeconds : Nat
  present : BitVec 4
  receiveLow : BitVec 4
  doorsOpen : BitVec 48
  deriving DecidableEq, Repr

/-- A report of the station's tag reader that ends a read attempt (R78): a tag with its tamper state, or a
failure. -/
inductive ReadReport where
  | tag (number : Nat) (broken : Bool)
  | failure
  deriving DecidableEq, Repr

/-- The three faults a received character may complete with (R186). -/
inductive CharFault where
  | parity
  | framing
  | overrun
  deriving DecidableEq, Repr

/-- One advice entry as LOAD ADVICE carries it (R28): named values stand as their codes on the link. -/
structure AdviceArgs where
  tag : Nat
  depositor : Nat
  date : Nat
  notes : Nat
  coins : Nat
  weight : Option Nat
  kind : Nat
  handling : Nat
  deriving DecidableEq, Repr

/-- The four optional criteria of LIST RECORDS (R20): the state stands as its code on the link. -/
structure RecordFilter where
  state : Option Nat
  compartment : Option Nat
  depositor : Option Nat
  date : Option Nat
  deriving DecidableEq, Repr

/-- The fields of SET DEPOSITOR after the index (R42), as they stand on the link. -/
structure DepositorArgs where
  credential : Nat
  state : Nat
  permissions : Nat
  allowance : Nat
  kind : Nat
  clearTotals : Nat
  deriving DecidableEq, Repr

/-- The fields of SET RULE after the rule number (R85), as they stand on the link. -/
structure RuleArgs where
  quantity : Nat
  condition : Nat
  reference : Int
  action : Nat
  deriving DecidableEq, Repr

/-- The fields SET WINDOW gives after the window number (R138): those of Table 23, those of Table 24, or, for a
kind the part does not know, fields it cannot name. -/
inductive WindowArgs where
  | protection (enable base mask links operations : Nat)
  | detection (enable lower upper timeLower timeUpper links operations : Nat)
  | unknown
  deriving DecidableEq, Repr

end Sys2Proof
end

