-- ==== Sys2Proof/Config.lean ====
section
/-! DEFINITION. What is fixed for every PQ448: the sizes and times its chapters state, and the one value the
manual leaves open (an opaque constant). -/

namespace Sys2Proof

/-- R1: the register holds up to 320 custody records. -/
def Config.maxRecords : Nat := 320

/-- R9: custody numbers run from 1 to 65,535. -/
def Config.maxCustody : Nat := 65535

/-- R26: the advice table has 384 slots. -/
def Config.adviceSlots : Nat := 384

/-- Table 3: a tag is 1 to 999,999,999. -/
def Config.maxTag : Nat := 999999999

/-- Table 10, R158: the greatest amount of money one field carries. -/
def Config.maxAmount : Nat := 999999999

/-- Table 11: the greatest credential number. -/
def Config.maxCredential : Nat := 9999999999

/-- Table 28: the last second of the branch day. -/
def Config.lastSecond : Nat := 86399

/-- Table 28: the last business date, after which dates give 0 (R177). -/
def Config.lastDate : Nat := 65535

/-- R62: a throat queue holds up to three bags. -/
def Config.throatSize : Nat := 3

/-- R72: the service queue holds up to four bags. -/
def Config.serviceSize : Nat := 4

/-- R50: a panel indication that is held is held for 4 s. -/
def Config.panelHoldMs : Nat := 4000

/-- R78: a tag read attempt lasts 250 ms. -/
def Config.attemptMs : Nat := 250

/-- R150: a scan lasts 2 s. -/
def Config.scanMs : Nat := 2000

/-- R207: INITIALISE STORE clears the store for 1.5 s. -/
def Config.clearingMs : Nat := 1500

/-- R77: the latched weight that stands for a scale over range. -/
def Config.overRange : Nat := 30000

/-- R163: the open manifest holds at most 24 entries. -/
def Config.manifestSize : Nat := 24

/-- Table 27: manifest numbers run from 1 to 9,999. -/
def Config.maxManifest : Nat := 9999

/-- R41: a depositor's totals stay at 4,294,967,295. -/
def Config.maxTotal : Nat := 4294967295

/-- R198: a line counter stays at 4,294,967,295. -/
def Config.maxLineCount : Nat := 4294967295

/-- R98: the greatest reserve count of class STANDARD. -/
def Config.maxStandardReserve : Nat := 12

/-- R98: the greatest reserve count of class COIN. -/
def Config.maxCoinReserve : Nat := 4

/-- The commands of the catalogue (Table 35), in the order of their codes. -/
inductive Command where
  | collect | discard | readRecord | listRecords | readCompartment | readChute | readStation | readAdvice
  | readDepositor | readCounters | clearLinkCounters | readNotices | noticeEnable | reportProgram | reportStop
  | setForcedError
  | setClock | safeState | retain | relinquish | setWindow | initialiseStore
  | setParameter | cosign | claim | yieldResource | handOut
  | loadAdvice | cancelAdvice | setDepositor | removeDepositor | setCompartment | setReserve | setRule | intake
  | clearReason | voidRecord | purge | reEnter | clearStation | clearChute | openDoor | inventory
  | countResult
  | manifestOpen | manifestAdd | manifestDrop | manifestClose | manifestAbandon
  deriving DecidableEq, Repr

/-- FREE VALUE. The kind byte of the result record that SET PARAMETER ends with (R208). Table 35a names 21 kinds
and gives none to that record. The constant has no body: nothing can be proved of its value (log entry 1). -/
opaque Config.parameterRecordKind : Byte

end Sys2Proof
end

