-- ==== Sys2Proof/Syntax.lean ====
section
/-! DEFINITION. The commands of the part: one constructor for each row of the table of operations and events.
A row that is a command of the catalogue (Table 35) stands for the frame of that command received whole on a
link: it carries the link, the frame's tag and the command's fields, a named value standing as its code on the
link (R191). A row that is an event carries what the sensor or line reports. -/

namespace Sys2Proof

/-- The commands of the PQ448, in the order of the table. -/
inductive Instr where
  /-- R206 -/
  | powerUp (battOk : Bool) (lines : StartLines)
  /-- R206 -/
  | resetN (lines : StartLines)
  /-- R176 -/
  | clockAdvance
  /-- R51 -/
  | credentialPresented (chute : ChuteId) (credential : Nat)
  /-- R54 -/
  | drop (chute : ChuteId)
  /-- R53 -/
  | endPressed (chute : ChuteId)
  /-- R55 -/
  | throatEntryReport (chute : ChuteId)
  /-- R57 -/
  | jamReport (chute : ChuteId)
  /-- R56 -/
  | drumWindowExpiry (chute : ChuteId)
  /-- R53 -/
  | idleTimerExpiry (chute : ChuteId)
  /-- R50 -/
  | panelHoldExpiry (chute : ChuteId)
  /-- R74 -/
  | presenceReport
  /-- R75 -/
  | loadTimeout
  /-- R77: the scale's reading in grams when the settle timer expires; 30,000 or more is over range. -/
  | settleTimerExpiry (scale : Nat)
  /-- R78 -/
  | tagReadReport (report : ReadReport)
  /-- R78 -/
  | tagReadAttemptTimeout
  /-- R109: the tag the entry reader read, absent for the report "tagless". -/
  | entryReport (compartment : CompartmentId) (tag : Option Nat)
  /-- R112 -/
  | transitTimeout
  /-- R141 -/
  | doorOpened (compartment : CompartmentId)
  /-- R142 -/
  | doorClosed (compartment : CompartmentId)
  /-- R140 -/
  | unlockWindowExpiry (compartment : CompartmentId)
  /-- R143 -/
  | doorLeftOpenTimerExpiry (compartment : CompartmentId)
  /-- R150: the tags the scan read, in the order the reconciliation takes them. -/
  | scanDone (compartment : CompartmentId) (tags : List Nat)
  /-- R124 -/
  | cosignWindowExpiry (bank : Fin 4)
  /-- R17 -/
  | purgeWalkEnd
  /-- R207 -/
  | initialiseStoreComplete
  /-- R205 -/
  | reportTimerExpiry (link : LinkId)
  /-- R192: the characters received on the link, first received first. -/
  | frameReceived (link : LinkId) (chars : List Byte)
  /-- R189 -/
  | frameSent (link : LinkId)
  /-- R196 -/
  | lineBreak (link : LinkId)
  /-- R186 -/
  | receiveLineRise (link : LinkId)
  /-- R197 -/
  | presentLineFall (link : LinkId)
  /-- R197 -/
  | presentLineRise (link : LinkId)
  /-- R194 -/
  | collect (link : LinkId) (tag : Nat)
  /-- R194 -/
  | discard (link : LinkId) (tag : Nat)
  /-- R19 -/
  | readRecord (link : LinkId) (tag : Nat) (custody : Nat)
  /-- R20 -/
  | listRecords (link : LinkId) (tag : Nat) (criteria : RecordFilter)
  /-- R102: a compartment number, or absent for ALL. -/
  | readCompartment (link : LinkId) (tag : Nat) (compartment : Option Nat)
  /-- R64: a chute number, or absent for ALL. -/
  | readChute (link : LinkId) (tag : Nat) (chute : Option Nat)
  /-- R91 -/
  | readStation (link : LinkId) (tag : Nat)
  /-- R36, with a tag (`byTag`) or with a selector 1 OPEN, 2 MATCHED, 3 ALL. -/
  | readAdvice (link : LinkId) (tag : Nat) (byTag : Bool) (value : Nat)
  /-- R44: a roster index, or absent for ALL. -/
  | readDepositor (link : LinkId) (tag : Nat) (index : Option Nat)
  /-- R198: a link number, or absent. -/
  | readCounters (link : LinkId) (tag : Nat) (number : Option Nat)
  /-- R198 -/
  | clearLinkCounters (link : LinkId) (tag : Nat)
  /-- R202 -/
  | readNotices (link : LinkId) (tag : Nat)
  /-- R202: the set over the 20 kinds, bit k - 1 for kind number k. -/
  | noticeEnable (link : LinkId) (tag : Nat) (kinds : Nat)
  /-- R204: mode 1 SECONDS, 2 BAGS. -/
  | reportProgram (link : LinkId) (tag : Nat) (mode : Nat) (n : Nat) (sources : List Nat)
  /-- R204 -/
  | reportStop (link : LinkId) (tag : Nat)
  /-- R199 -/
  | setForcedError (link : LinkId) (tag : Nat) (n : Nat)
  /-- R179: seconds of day and business date, together or neither. -/
  | setClock (link : LinkId) (tag : Nat) (seconds : Option Nat) (date : Option Nat)
  /-- R118: 1 LOCKED, 2 OPEN. -/
  | safeState (link : LinkId) (tag : Nat) (value : Nat)
  /-- R119: a resource by its place in Table 20, or absent for ALL. -/
  | retain (link : LinkId) (tag : Nat) (resource : Option Nat)
  /-- R120 -/
  | relinquish (link : LinkId) (tag : Nat) (resource : Nat)
  /-- R138: kind 1 PROTECTION, 2 DETECTION. -/
  | setWindow (link : LinkId) (tag : Nat) (kind : Nat) (number : Nat) (fields : Option WindowArgs)
  /-- R207 -/
  | initialiseStore (link : LinkId) (tag : Nat)
  /-- R208: a parameter number and a value, together or neither. -/
  | setParameter (link : LinkId) (tag : Nat) (number : Option Nat) (value : Option Nat)
  /-- R122 -/
  | cosign (link : LinkId) (tag : Nat) (resource : Nat)
  /-- R121 -/
  | claim (link : LinkId) (tag : Nat) (resource : Nat)
  /-- R123 -/
  | yieldResource (link : LinkId) (tag : Nat) (resource : Nat)
  /-- R147 -/
  | handOut (link : LinkId) (tag : Nat) (compartment : Nat) (custody : List Nat)
  /-- R146 -/
  | openDoor (link : LinkId) (tag : Nat) (compartment : Nat)
  /-- R148 -/
  | inventory (link : LinkId) (tag : Nat) (compartment : Nat)
  /-- R28 -/
  | loadAdvice (link : LinkId) (tag : Nat) (entries : List AdviceArgs)
  /-- R32 -/
  | cancelAdvice (link : LinkId) (tag : Nat) (bagTag : Nat)
  /-- R42 -/
  | setDepositor (link : LinkId) (tag : Nat) (index : Nat) (fields : DepositorArgs)
  /-- R43 -/
  | removeDepositor (link : LinkId) (tag : Nat) (index : Nat)
  /-- R100: class 1 STANDARD, 2 COIN; service flag 1 IN_SERVICE, 2 OUT_OF_SERVICE. -/
  | setCompartment (link : LinkId) (tag : Nat) (compartment : Nat) (cls : Nat) (service : Nat)
  /-- R101 -/
  | setReserve (link : LinkId) (tag : Nat) (cls : Nat) (count : Nat)
  /-- R85 -/
  | setRule (link : LinkId) (tag : Nat) (number : Nat) (fields : RuleArgs)
  /-- R48 -/
  | intakeMask (link : LinkId) (tag : Nat) (chute : Nat)
  /-- R48 -/
  | intakeUnmask (link : LinkId) (tag : Nat) (chute : Nat)
  /-- R48 -/
  | intakeCloseAll (link : LinkId) (tag : Nat)
  /-- R48 -/
  | intakeOpenAll (link : LinkId) (tag : Nat)
  /-- R15: the reason by its place in Table 9. -/
  | clearReason (link : LinkId) (tag : Nat) (custody : Nat) (reason : Nat)
  /-- R16 -/
  | voidRecord (link : LinkId) (tag : Nat) (custody : Nat)
  /-- R17 -/
  | purge (link : LinkId) (tag : Nat) (date : Nat)
  /-- R73 -/
  | reEnter (link : LinkId) (tag : Nat) (custody : Nat)
  /-- R89 -/
  | clearStation (link : LinkId) (tag : Nat)
  /-- R63 -/
  | clearChute (link : LinkId) (tag : Nat) (chute : Nat)
  /-- R158 -/
  | countResult (link : LinkId) (tag : Nat) (custody : Nat) (notes : Nat) (coins : Nat)
  /-- R164 -/
  | manifestOpen (link : LinkId) (tag : Nat)
  /-- R165 -/
  | manifestAdd (link : LinkId) (tag : Nat) (custody : Nat)
  /-- R166 -/
  | manifestDrop (link : LinkId) (tag : Nat) (custody : Nat)
  /-- R169 -/
  | manifestClose (link : LinkId) (tag : Nat)
  /-- R170 -/
  | manifestAbandon (link : LinkId) (tag : Nat)
  /-- R186 -/
  | receivedCharacterFault (link : LinkId) (fault : CharFault)
  deriving DecidableEq, Repr

end Sys2Proof
end

