-- ==== Sys2Proof/WellFormed.lean ====
section
/-! DEFINITION. Which commands the links and lines can carry: every number fits the bytes its field has on the
link (R191), a frame's tag is one byte (Table 31), two fields that stand together or not at all do so (R179,
R208), and a sensor reports a tag within its range (R150, Table 3). A command outside these is no event of the
part; `exec` still has a next state for it. -/

namespace Sys2Proof

/-- A frame's tag is 0 to 255 (Table 31). -/
def tagFits (t : Nat) : Bool := t < 256

/-- A number fits in `n` bytes. -/
def fitsBytes (n v : Nat) : Bool := v < 256 ^ n

/-- An optional number fits in `n` bytes. -/
def optFits (n : Nat) : Option Nat → Bool
  | none => true
  | some v => fitsBytes n v

/-- A tag as a reader reports it: 1 to 999,999,999 (Table 3). -/
def isTag (t : Nat) : Bool := 1 ≤ t && t ≤ Config.maxTag

/-- The fields of an advice entry fit their bytes (R28, R191). -/
def AdviceArgs.fits (a : AdviceArgs) : Bool :=
  fitsBytes 4 a.tag && fitsBytes 1 a.depositor && fitsBytes 2 a.date && fitsBytes 4 a.notes &&
  fitsBytes 4 a.coins && optFits 2 a.weight && fitsBytes 1 a.kind && fitsBytes 1 a.handling

/-- The fields of SET DEPOSITOR fit their bytes (R42, R191). -/
def DepositorArgs.fits (a : DepositorArgs) : Bool :=
  fitsBytes 5 a.credential && fitsBytes 1 a.state && fitsBytes 1 a.permissions && fitsBytes 1 a.allowance &&
  fitsBytes 1 a.kind && fitsBytes 1 a.clearTotals

/-- The fields of SET RULE fit their bytes (R85, R191). -/
def RuleArgs.fits (a : RuleArgs) : Bool :=
  fitsBytes 1 a.quantity && fitsBytes 1 a.condition && fitsBytes 1 a.action &&
  decide (-2147483648 ≤ a.reference) && decide (a.reference ≤ 2147483647)

/-- The fields of SET WINDOW are those of the kind given and fit their bytes (R138, R191). -/
def WindowArgs.fits (kind : Nat) : WindowArgs → Bool
  | .protection e b m l o =>
    kind == 1 && fitsBytes 1 e && fitsBytes 1 b && fitsBytes 1 m && fitsBytes 1 l && fitsBytes 1 o
  | .detection e lo hi tlo thi l o =>
    kind == 2 && fitsBytes 1 e && fitsBytes 1 lo && fitsBytes 1 hi && fitsBytes 3 tlo && fitsBytes 3 thi &&
    fitsBytes 1 l && fitsBytes 1 o
  | .unknown => kind != 1 && kind != 2

/-- The commands that the part's links and lines can carry. -/
def Instr.wellFormed : Instr → Bool
  | .powerUp _ _ => true
  | .resetN _ => true
  | .clockAdvance => true
  | .credentialPresented _ _ => true
  | .drop _ => true
  | .endPressed _ => true
  | .throatEntryReport _ => true
  | .jamReport _ => true
  | .drumWindowExpiry _ => true
  | .idleTimerExpiry _ => true
  | .panelHoldExpiry _ => true
  | .presenceReport => true
  | .loadTimeout => true
  | .settleTimerExpiry _ => true
  | .tagReadReport _ => true
  | .tagReadAttemptTimeout => true
  | .entryReport _ tag => tag.all isTag
  | .transitTimeout => true
  | .doorOpened _ => true
  | .doorClosed _ => true
  | .unlockWindowExpiry _ => true
  | .doorLeftOpenTimerExpiry _ => true
  | .scanDone _ tags => tags.all isTag && decide tags.Nodup
  | .cosignWindowExpiry _ => true
  | .purgeWalkEnd => true
  | .initialiseStoreComplete => true
  | .reportTimerExpiry _ => true
  | .frameReceived _ _ => true
  | .frameSent _ => true
  | .lineBreak _ => true
  | .receiveLineRise _ => true
  | .presentLineFall _ => true
  | .presentLineRise _ => true
  | .collect _ t => tagFits t
  | .discard _ t => tagFits t
  | .readRecord _ t n => tagFits t && fitsBytes 2 n
  | .listRecords _ t f =>
    tagFits t && optFits 1 f.state && optFits 1 f.compartment && optFits 1 f.depositor && optFits 2 f.date
  | .readCompartment _ t c => tagFits t && optFits 1 c
  | .readChute _ t c => tagFits t && optFits 1 c
  | .readStation _ t => tagFits t
  | .readAdvice _ t byTag v => tagFits t && fitsBytes (if byTag then 4 else 1) v
  | .readDepositor _ t i => tagFits t && optFits 1 i
  | .readCounters _ t n => tagFits t && optFits 1 n
  | .clearLinkCounters _ t => tagFits t
  | .readNotices _ t => tagFits t
  | .noticeEnable _ t k => tagFits t && fitsBytes 3 k
  | .reportProgram _ t m n l =>
    tagFits t && fitsBytes 1 m && fitsBytes (if m == 2 then 1 else 2) n && decide (l.length < 256) &&
    l.all (fitsBytes 1)
  | .reportStop _ t => tagFits t
  | .setForcedError _ t n => tagFits t && fitsBytes 1 n
  | .setClock _ t s d => tagFits t && optFits 3 s && optFits 2 d && (s.isSome == d.isSome)
  | .safeState _ t v => tagFits t && fitsBytes 1 v
  | .retain _ t r => tagFits t && optFits 1 r
  | .relinquish _ t r => tagFits t && fitsBytes 1 r
  | .setWindow _ t k n f => tagFits t && fitsBytes 1 k && fitsBytes 1 n && f.all (WindowArgs.fits k)
  | .initialiseStore _ t => tagFits t
  | .setParameter _ t n v => 
    tagFits t && optFits 1 n && (optFits 3 v || n.any fun k => k == 0 || 15 < k) && (n.isSome == v.isSome)
  | .cosign _ t r => tagFits t && fitsBytes 1 r
  | .claim _ t r => tagFits t && fitsBytes 1 r
  | .yieldResource _ t r => tagFits t && fitsBytes 1 r
  | .handOut _ t c l => tagFits t && fitsBytes 1 c && decide (l.length < 256) && l.all (fitsBytes 2)
  | .openDoor _ t c => tagFits t && fitsBytes 1 c
  | .inventory _ t c => tagFits t && fitsBytes 1 c
  | .loadAdvice _ t l => tagFits t && decide (l.length < 256) && l.all AdviceArgs.fits
  | .cancelAdvice _ t g => tagFits t && fitsBytes 4 g
  | .setDepositor _ t i f => tagFits t && fitsBytes 1 i && f.fits
  | .removeDepositor _ t i => tagFits t && fitsBytes 1 i
  | .setCompartment _ t c k v => tagFits t && fitsBytes 1 c && fitsBytes 1 k && fitsBytes 1 v
  | .setReserve _ t k n => tagFits t && fitsBytes 1 k && fitsBytes 1 n
  | .setRule _ t n f => tagFits t && fitsBytes 1 n && f.fits
  | .intakeMask _ t c => tagFits t && fitsBytes 1 c
  | .intakeUnmask _ t c => tagFits t && fitsBytes 1 c
  | .intakeCloseAll _ t => tagFits t
  | .intakeOpenAll _ t => tagFits t
  | .clearReason _ t n r => tagFits t && fitsBytes 2 n && fitsBytes 1 r
  | .voidRecord _ t n => tagFits t && fitsBytes 2 n
  | .purge _ t d => tagFits t && fitsBytes 2 d
  | .reEnter _ t n => tagFits t && fitsBytes 2 n
  | .clearStation _ t => tagFits t
  | .clearChute _ t c => tagFits t && fitsBytes 1 c
  | .countResult _ t n a b => tagFits t && fitsBytes 2 n && fitsBytes 4 a && fitsBytes 4 b
  | .manifestOpen _ t => tagFits t
  | .manifestAdd _ t n => tagFits t && fitsBytes 2 n
  | .manifestDrop _ t n => tagFits t && fitsBytes 2 n
  | .manifestClose _ t => tagFits t
  | .manifestAbandon _ t => tagFits t
  | .receivedCharacterFault _ _ => true

end Sys2Proof
end

