-- ==== Sys2Proof/Decode.lean ====
section
/-! DEFINITION. Reading a command out of a frame: the codes of Table 35 and the encoding of command fields that
R191 gives. No row of the table of operations gives bits, so `decodeTableWord` answers none. -/

namespace Sys2Proof

/-- The command a table row's word spells: no row of this table gives bits. -/
def decodeTableWord (_nbits _w : Nat) : Option Instr := none

/-- The code of a command (Table 35). -/
def Command.code : Command → Nat
  | .collect => 0x01 | .discard => 0x02 | .readRecord => 0x03 | .listRecords => 0x04
  | .readCompartment => 0x05 | .readChute => 0x06 | .readStation => 0x07 | .readAdvice => 0x08
  | .readDepositor => 0x09 | .readCounters => 0x0A | .clearLinkCounters => 0x0B | .readNotices => 0x0C
  | .noticeEnable => 0x0D | .reportProgram => 0x0E | .reportStop => 0x0F | .setForcedError => 0x10
  | .setClock => 0x20 | .safeState => 0x21 | .retain => 0x22 | .relinquish => 0x23 | .setWindow => 0x24
  | .initialiseStore => 0x25 | .setParameter => 0x28 | .cosign => 0x29 | .claim => 0x2A
  | .yieldResource => 0x2B | .handOut => 0x2C
  | .loadAdvice => 0x30 | .cancelAdvice => 0x31 | .setDepositor => 0x32 | .removeDepositor => 0x33
  | .setCompartment => 0x34 | .setReserve => 0x35 | .setRule => 0x36 | .intake => 0x37
  | .clearReason => 0x38 | .voidRecord => 0x39 | .purge => 0x3A | .reEnter => 0x3B | .clearStation => 0x3C
  | .clearChute => 0x3D | .openDoor => 0x3E | .inventory => 0x3F | .countResult => 0x40
  | .manifestOpen => 0x48 | .manifestAdd => 0x49 | .manifestDrop => 0x4A | .manifestClose => 0x4B
  | .manifestAbandon => 0x4C

/-- Every command of Table 35, in code order. -/
def allCommands : List Command :=
  [.collect, .discard, .readRecord, .listRecords, .readCompartment, .readChute, .readStation, .readAdvice,
   .readDepositor, .readCounters, .clearLinkCounters, .readNotices, .noticeEnable, .reportProgram, .reportStop,
   .setForcedError] ++
  [.setClock, .safeState, .retain, .relinquish, .setWindow, .initialiseStore, .setParameter, .cosign, .claim,
   .yieldResource, .handOut] ++
  [.loadAdvice, .cancelAdvice, .setDepositor, .removeDepositor, .setCompartment, .setReserve, .setRule, .intake,
   .clearReason, .voidRecord, .purge, .reEnter, .clearStation, .clearChute, .openDoor, .inventory] ++
  [.countResult, .manifestOpen, .manifestAdd, .manifestDrop, .manifestClose, .manifestAbandon]

/-- The command a code names (R192: a code naming no command is refused UNKNOWN). -/
def commandOfCode (n : Nat) : Option Command := allCommands.find? fun c => c.code == n

/-- The links a command is allowed to (Table 35; for SET PARAMETER see R192 and R208). -/
def Command.allowed (c : Command) (l : LinkId) : Bool :=
  match c with
  | .setClock | .safeState | .retain | .relinquish | .setWindow | .initialiseStore => l == 0
  | .setParameter => l == 0 || l == 1
  | .claim | .yieldResource | .handOut => l != 0
  | .loadAdvice | .cancelAdvice | .setDepositor | .removeDepositor | .setCompartment | .setReserve | .setRule
  | .intake | .clearReason | .voidRecord | .purge | .reEnter | .clearStation | .clearChute | .openDoor
  | .inventory => l == 1
  | .countResult => l == 2
  | .manifestOpen | .manifestAdd | .manifestDrop | .manifestClose | .manifestAbandon => l == 3
  | .collect | .discard | .readRecord | .listRecords | .readCompartment | .readChute | .readStation
  | .readAdvice | .readDepositor | .readCounters | .clearLinkCounters | .readNotices | .noticeEnable
  | .reportProgram | .reportStop | .setForcedError | .cosign => true

/-- The long commands (R192, Table 35). -/
def Command.isLong (c : Command) : Bool :=
  c == .handOut || c == .openDoor || c == .inventory || c == .purge || c == .initialiseStore

/-- What the body of a COMMAND frame of a known code holds: a command, an INTAKE action that is none of the four
(R48), or a body that does not hold the command's fields (R192). -/
inductive FrameCommand where
  | command (i : Instr)
  | intakeUnknown
  | malformed
  deriving DecidableEq, Repr

/-- A number of `n` bytes, least significant byte first (R188). -/
def takeNum : Nat → List Byte → Option (Nat × List Byte)
  | 0, bs => some (0, bs)
  | _ + 1, [] => none
  | n + 1, b :: bs =>
    match takeNum n bs with
    | some (v, rest) => some (b.toNat + 256 * v, rest)
    | none => none

/-- An optional number: one byte, 1 if present and 0 if absent, and the number when present (R191). After any other
presence byte the body does not hold the command's fields, so it is MALFORMED (DESIGN CHOICE, log entry 9). -/
def takeOpt (n : Nat) : List Byte → Option (Option Nat × List Byte)
  | [] => none
  | b :: bs =>
    if b.toNat = 0 then some (none, bs)
    else if b.toNat = 1 then
      match takeNum n bs with
      | some (v, rest) => some (some v, rest)
      | none => none
    else none

/-- `count` members, each of `n` bytes. -/
def takeNums (n : Nat) : Nat → List Byte → Option (List Nat × List Byte)
  | 0, bs => some ([], bs)
  | count + 1, bs =>
    match takeNum n bs with
    | none => none
    | some (v, rest) =>
      match takeNums n count rest with
      | none => none
      | some (vs, rest') => some (v :: vs, rest')

/-- A list: a one-byte count followed by its members (R191). -/
def takeList (n : Nat) (bs : List Byte) : Option (List Nat × List Byte) :=
  match takeNum 1 bs with
  | none => none
  | some (count, rest) => takeNums n count rest

/-- One advice entry of LOAD ADVICE (R28, R191). -/
def takeAdvice (bs : List Byte) : Option (AdviceArgs × List Byte) := do
  let (tag, bs) ← takeNum 4 bs
  let (depositor, bs) ← takeNum 1 bs
  let (date, bs) ← takeNum 2 bs
  let (notes, bs) ← takeNum 4 bs
  let (coins, bs) ← takeNum 4 bs
  let (weight, bs) ← takeOpt 2 bs
  let (kind, bs) ← takeNum 1 bs
  let (handling, bs) ← takeNum 1 bs
  return ({ tag, depositor, date, notes, coins, weight, kind, handling }, bs)

/-- The `count` advice entries of LOAD ADVICE. -/
def takeAdvices : Nat → List Byte → Option (List AdviceArgs × List Byte)
  | 0, bs => some ([], bs)
  | count + 1, bs =>
    match takeAdvice bs with
    | none => none
    | some (a, rest) =>
      match takeAdvices count rest with
      | none => none
      | some (as, rest') => some (a :: as, rest')

/-- A body read whole: nothing may be left over except one pad byte of 0 (R188, R192). A last byte over that is not 0
is no pad (DEDUCED, log entry 9). -/
def readWhole (parsed : Option (Instr × List Byte)) : FrameCommand :=
  match parsed with
  | none => .malformed
  | some (i, rest) => if rest == [] || rest == [0#8] then .command i else .malformed

/-- A command of one number of `n` bytes. -/
def oneNum (n : Nat) (make : Nat → Instr) (body : List Byte) : FrameCommand :=
  readWhole do
    let (v, rest) ← takeNum n body
    return (make v, rest)

/-- A command with two forms, a number of `n` bytes or a selector without fields: form byte 1 or 2 (R191). -/
def numOrSelector (n : Nat) (make : Option Nat → Instr) (body : List Byte) : FrameCommand :=
  readWhole do
    let (form, rest) ← takeNum 1 body
    if form = 1 then
      let (v, rest) ← takeNum n rest
      return (make (some v), rest)
    else if form = 2 then return (make none, rest)
    else none

/-- The bytes that hold the value of a parameter: the fewest that hold its range (R191, Table 41). -/
def parameterBytes (number : Nat) : Nat :=
  if number ∈ [1, 2, 3, 13] then 2 else if number ∈ [11, 15] then 3 else 1

/-- All bytes that are left, as one number. -/
def takeRest (bs : List Byte) : Nat × List Byte :=
  match takeNum bs.length bs with
  | some p => p
  | none => (0, [])

/-- The parameter number a SET PARAMETER body names, which R192 tests against the link's role before the form of
the whole body. -/
def namedParameter (body : List Byte) : Option Nat :=
  match takeNum 1 body with
  | some (1, rest) => (takeNum 1 rest).map Prod.fst
  | _ => none

/-- The fields of a window after its number (R138, Tables 23 and 24); of an unknown kind nothing is known. -/
def takeWindow (kind : Nat) (bs : List Byte) : Option (WindowArgs × List Byte) :=
  if kind = 1 then do
    let (e, bs) ← takeNum 1 bs
    let (b, bs) ← takeNum 1 bs
    let (m, bs) ← takeNum 1 bs
    let (l, bs) ← takeNum 1 bs
    let (o, bs) ← takeNum 1 bs
    return (.protection e b m l o, bs)
  else if kind = 2 then do
    let (e, bs) ← takeNum 1 bs
    let (lo, bs) ← takeNum 1 bs
    let (hi, bs) ← takeNum 1 bs
    let (tlo, bs) ← takeNum 3 bs
    let (thi, bs) ← takeNum 3 bs
    let (l, bs) ← takeNum 1 bs
    let (o, bs) ← takeNum 1 bs
    return (.detection e lo hi tlo thi l o, bs)
  else some (.unknown, [])

/-- The command a COMMAND frame of a known code carries (R191, R192). An INTAKE body whose action is none of the four
is taken whole whatever follows the action. SET WINDOW has two forms, the fields of its kind and none (both DESIGN
CHOICE, log entry 9). -/
def decodeBody (c : Command) (l : LinkId) (tag : Nat) (body : List Byte) : FrameCommand :=
  match c with
  | .collect => readWhole (some (.collect l tag, body))
  | .discard => readWhole (some (.discard l tag, body))
  | .readRecord => oneNum 2 (.readRecord l tag) body
  | .listRecords =>
    readWhole do
      let (state, bs) ← takeOpt 1 body
      let (compartment, bs) ← takeOpt 1 bs
      let (depositor, bs) ← takeOpt 1 bs
      let (date, bs) ← takeOpt 2 bs
      return (.listRecords l tag { state, compartment, depositor, date }, bs)
  | .readCompartment => numOrSelector 1 (.readCompartment l tag) body
  | .readChute => numOrSelector 1 (.readChute l tag) body
  | .readStation => readWhole (some (.readStation l tag, body))
  | .readAdvice =>
    readWhole do
      let (form, bs) ← takeNum 1 body
      if form = 1 then
        let (v, bs) ← takeNum 4 bs
        return (.readAdvice l tag true v, bs)
      else if form = 2 then
        let (v, bs) ← takeNum 1 bs
        return (.readAdvice l tag false v, bs)
      else none
  | .readDepositor => numOrSelector 1 (.readDepositor l tag) body
  | .readCounters =>
    readWhole do
      let (form, bs) ← takeNum 1 body
      if form = 1 then return (.readCounters l tag none, bs)
      else if form = 2 then
        let (v, bs) ← takeNum 1 bs
        return (.readCounters l tag (some v), bs)
      else none
  | .clearLinkCounters => readWhole (some (.clearLinkCounters l tag, body))
  | .readNotices => readWhole (some (.readNotices l tag, body))
  | .noticeEnable => oneNum 3 (.noticeEnable l tag) body
  | .reportProgram =>
    readWhole do
      let (mode, bs) ← takeNum 1 body
      let (n, bs) ← takeNum (if mode == 2 then 1 else 2) bs
      let (sources, bs) ← takeList 1 bs
      return (.reportProgram l tag mode n sources, bs)
  | .reportStop => readWhole (some (.reportStop l tag, body))
  | .setForcedError => oneNum 1 (.setForcedError l tag) body
  | .setClock =>
    readWhole do
      let (form, bs) ← takeNum 1 body
      if form = 1 then
        let (s, bs) ← takeNum 3 bs
        let (d, bs) ← takeNum 2 bs
        return (.setClock l tag (some s) (some d), bs)
      else if form = 2 then return (.setClock l tag none none, bs)
      else none
  | .safeState => oneNum 1 (.safeState l tag) body
  | .retain => numOrSelector 1 (.retain l tag) body
  | .relinquish => oneNum 1 (.relinquish l tag) body
  | .setWindow =>
    readWhole do
      let (form, bs) ← takeNum 1 body
      let (kind, bs) ← takeNum 1 bs
      let (number, bs) ← takeNum 1 bs
      if form = 1 then
        let (fields, bs) ← takeWindow kind bs
        return (.setWindow l tag kind number (some fields), bs)
      else if form = 2 then return (.setWindow l tag kind number none, bs)
      else none
  | .initialiseStore => readWhole (some (.initialiseStore l tag, body))
  | .setParameter =>
    readWhole do
      let (form, bs) ← takeNum 1 body
      if form = 1 then
        let (n, bs) ← takeNum 1 bs
        if 1 ≤ n ∧ n ≤ 15 then
          let (v, bs) ← takeNum (parameterBytes n) bs
          return (.setParameter l tag (some n) (some v), bs)
        else if bs = [] then none
        else
          let (v, bs) := takeRest bs
          return (.setParameter l tag (some n) (some v), bs)
      else if form = 2 then return (.setParameter l tag none none, bs)
      else none
  | .cosign => oneNum 1 (.cosign l tag) body
  | .claim => oneNum 1 (.claim l tag) body
  | .yieldResource => oneNum 1 (.yieldResource l tag) body
  | .handOut =>
    readWhole do
      let (c, bs) ← takeNum 1 body
      let (ns, bs) ← takeList 2 bs
      return (.handOut l tag c ns, bs)
  | .loadAdvice =>
    readWhole do
      let (count, bs) ← takeNum 1 body
      let (entries, bs) ← takeAdvices count bs
      return (.loadAdvice l tag entries, bs)
  | .cancelAdvice => oneNum 4 (.cancelAdvice l tag) body
  | .setDepositor =>
    readWhole do
      let (index, bs) ← takeNum 1 body
      let (credential, bs) ← takeNum 5 bs
      let (state, bs) ← takeNum 1 bs
      let (permissions, bs) ← takeNum 1 bs
      let (allowance, bs) ← takeNum 1 bs
      let (kind, bs) ← takeNum 1 bs
      let (clearTotals, bs) ← takeNum 1 bs
      return (.setDepositor l tag index { credential, state, permissions, allowance, kind, clearTotals }, bs)
  | .removeDepositor => oneNum 1 (.removeDepositor l tag) body
  | .setCompartment =>
    readWhole do
      let (c, bs) ← takeNum 1 body
      let (cls, bs) ← takeNum 1 bs
      let (service, bs) ← takeNum 1 bs
      return (.setCompartment l tag c cls service, bs)
  | .setReserve =>
    readWhole do
      let (cls, bs) ← takeNum 1 body
      let (count, bs) ← takeNum 1 bs
      return (.setReserve l tag cls count, bs)
  | .setRule =>
    readWhole do
      let (number, bs) ← takeNum 1 body
      let (quantity, bs) ← takeNum 1 bs
      let (condition, bs) ← takeNum 1 bs
      let (reference, bs) ← takeNum 4 bs
      let (action, bs) ← takeNum 1 bs
      return (.setRule l tag number { quantity, condition, reference := (BitVec.ofNat 32 reference).toInt, action }, bs)
  | .intake =>
    match takeNum 1 body with
    | none => .malformed
    | some (action, bs) =>
      if action = 1 then oneNum 1 (.intakeMask l tag) bs
      else if action = 2 then oneNum 1 (.intakeUnmask l tag) bs
      else if action = 3 then readWhole (some (.intakeCloseAll l tag, bs))
      else if action = 4 then readWhole (some (.intakeOpenAll l tag, bs))
      else .intakeUnknown
  | .clearReason =>
    readWhole do
      let (n, bs) ← takeNum 2 body
      let (r, bs) ← takeNum 1 bs
      return (.clearReason l tag n r, bs)
  | .voidRecord => oneNum 2 (.voidRecord l tag) body
  | .purge => oneNum 2 (.purge l tag) body
  | .reEnter => oneNum 2 (.reEnter l tag) body
  | .clearStation => readWhole (some (.clearStation l tag, body))
  | .clearChute => oneNum 1 (.clearChute l tag) body
  | .openDoor => oneNum 1 (.openDoor l tag) body
  | .inventory => oneNum 1 (.inventory l tag) body
  | .countResult =>
    readWhole do
      let (n, bs) ← takeNum 2 body
      let (notes, bs) ← takeNum 4 bs
      let (coins, bs) ← takeNum 4 bs
      return (.countResult l tag n notes coins, bs)
  | .manifestOpen => readWhole (some (.manifestOpen l tag, body))
  | .manifestAdd => oneNum 2 (.manifestAdd l tag) body
  | .manifestDrop => oneNum 2 (.manifestDrop l tag) body
  | .manifestClose => readWhole (some (.manifestClose l tag, body))
  | .manifestAbandon => readWhole (some (.manifestAbandon l tag, body))

end Sys2Proof
end

