-- ==== Sys2Proof/Machine/State.lean ====
section
/-! DEFINITION. The state of the PQ448 as plain data, block by block in the manual's own shape, and its value
after reset. Fields that the manual states as functions of others (counts, pending placement, drives, panels,
attention lines) are computed from them in Machine/Ops.lean and Machine/Flags.lean. -/

namespace Sys2Proof.Machine

/-! ## The custody register (chapter 1) -/

/-- The twelve record states (Table 7). -/
inductive RecordState where
  | waiting | checking | routing | stored | held | outTeller | outCarrier | counted | dispatched | stranded
  | missing | void
  deriving DecidableEq, Repr

/-- The tamper values of a record (Table 6). -/
inductive Tamper where
  | intact | broken | unread
  deriving DecidableEq, Repr

/-- NOTE or COIN (Table 3). -/
inductive BagKind where
  | note | coin
  deriving DecidableEq, Repr

/-- BRANCH_COUNT or THROUGH (Table 3). -/
inductive Handling where
  | branchCount | through
  deriving DecidableEq, Repr

/-- The twelve hold reasons, in the order of Table 9. -/
inductive Reason where
  | unreadable | unadvised | wrongDepositor | duplicate | weight | tamper | stale | rule | noSpace | misrouted
  | recovered | tagChanged
  deriving DecidableEq, Repr

/-- A set of hold reasons: bit k stands for the reason of bit k of Table 34. -/
abbrev ReasonSet := BitVec 12

/-- The action of a check rule, and the mark it leaves: a hold mark or a plain mark (R13, Table 17). -/
inductive RuleAction where
  | hold | mark
  deriving DecidableEq, Repr

/-- The count field of a record (R4, R159). -/
structure Count where
  notes : Nat
  coins : Nat
  difference : Option Int
  deriving DecidableEq, Repr

/-- A custody record (Table 6). -/
structure Record where
  number : Nat
  depositor : DepositorId
  source : ChuteId
  arrivalDate : Nat
  arrivalSeconds : Nat
  tag : Option Nat
  tamper : Option Tamper
  weight : Option Nat
  advice : Option Nat
  kind : Option BagKind
  handling : Option Handling
  reasons : ReasonSet
  marks : Table (Option RuleAction) 8
  detected : Bool
  compartment : Option CompartmentId
  state : RecordState
  count : Option Count
  manifest : Option Nat
  deriving DecidableEq, Repr

/-- The eight per-date counters (R21). -/
structure DateCounts where
  arrivals : Nat
  accepted : Nat
  held : Nat
  handedToTeller : Nat
  counted : Nat
  dispatched : Nat
  discrepancies : Nat
  refusedCredentials : Nat
  deriving DecidableEq, Repr

/-- A purge walk in progress (R17): its date and the highest custody number it has visited. -/
structure Walk where
  date : Nat
  visited : Nat
  deriving DecidableEq, Repr

/-- The custody register (R1). -/
structure Register where
  records : List Record
  nextNumber : Nat
  reservations : Nat
  current : DateCounts
  lastCounts : DateCounts
  lastDate : Nat
  walk : Option Walk
  deriving DecidableEq, Repr

/-! ## The advice table and the depositor roster (chapter 2) -/

/-- An advice entry (Table 10); it is OPEN while `matched` is absent and MATCHED while it is present. -/
structure Advice where
  index : Nat
  tag : Nat
  depositor : DepositorId
  date : Nat
  notes : Nat
  coins : Nat
  weight : Option Nat
  kind : BagKind
  handling : Handling
  matched : Option Nat
  deriving DecidableEq, Repr

/-- The advice table (R26): the entries in load order, each with the number of its slot, and the record of the
last expiry. -/
structure AdviceTable where
  entries : List Advice
  expiryDate : Nat
  expiryCount : Nat
  deriving DecidableEq, Repr

/-- ACTIVE or SUSPENDED (Table 11). -/
inductive DepositorState where
  | active | suspended
  deriving DecidableEq, Repr

/-- A depositor entry (Table 11); bit n of `permissions` stands for chute n. -/
structure Depositor where
  credential : Nat
  state : DepositorState
  permissions : BitVec 4
  allowance : Nat
  remaining : Nat
  arrivals : Nat
  kind : BagKind
  declared : Nat
  counted : Nat
  saturation : Nat
  discrepancies : Nat
  deriving DecidableEq, Repr

/-! ## The chutes (chapter 3) -/

/-- The state of a chute with the fields present in it (Tables 12 and 13); timers in ms remaining. -/
inductive ChuteState where
  | idle
  | session (depositor : DepositorId) (idleMs : Nat)
  | drum (depositor : DepositorId) (windowMs : Nat) (endPending : Bool)
  | fault
  deriving DecidableEq, Repr

/-- The panel indications, in the order of Table 14. -/
inductive Indication where
  | ready | closed | unknown | suspended | notPermitted | limit | busy | sessionOpen | turning | wait | full
  | received | receivedLast | noBag | ended | fault
  deriving DecidableEq, Repr

/-- A chute (Table 12). `hold` is the indication held on the panel and the ms left of its hold (R50). -/
structure Chute where
  state : ChuteState
  masked : Bool
  hold : Option (Indication × Nat)
  queue : List Nat
  deriving DecidableEq, Repr

/-! ## The check station (chapter 4) -/

/-- The five requesters of the arbiter (R68). -/
inductive Source where
  | service
  | throat (n : ChuteId)
  deriving DecidableEq, Repr

/-- The settle timer while it runs, then the latched weight (R77). -/
inductive Settle where
  | running (ms : Nat)
  | latched (grams : Nat)
  deriving DecidableEq, Repr

/-- The result of the tag reads: a tag with a tamper state, or FAILED (R78). -/
inductive ReadResult where
  | tag (number : Nat) (broken : Bool)
  | failed
  deriving DecidableEq, Repr

/-- The current read attempt with the ms left of it, or the read result (R78). -/
inductive Reads where
  | attempt (ms : Nat)
  | done (result : ReadResult)
  deriving DecidableEq, Repr

/-- The measuring fields of Table 15; `allowed` is the attempts parameter at the load's completion (R78). -/
structure Measuring where
  settle : Settle
  made : Nat
  allowed : Nat
  reads : Reads
  deriving DecidableEq, Repr

/-- The state of the station with the fields present in it (Tables 15 and 16). PLACING holds the transit: the
expected compartment and the transit timer (R106, R109). -/
inductive StationState where
  | idle
  | loading (record : Nat) (source : Source) (loadMs : Nat)
  | measuring (record : Nat) (source : Source) (m : Measuring)
  | placing (record : Nat) (source : Source) (target : CompartmentId) (transitMs : Nat)
  | blocked (record : Nat) (source : Source)
  | fault
  deriving DecidableEq, Repr

/-- The six rule quantities, in the order of Table 17. -/
inductive Quantity where
  | weight | weightDeviation | declaredValue | arrivalTime | depositorBags | adviceLag
  deriving DecidableEq, Repr

/-- The seven rule conditions, in the order of Table 17. -/
inductive Condition where
  | eq | ne | gt | ge | lt | le | off
  deriving DecidableEq, Repr

/-- A check rule (Table 17). -/
structure CheckRule where
  quantity : Quantity
  condition : Condition
  reference : Int
  action : RuleAction
  deriving DecidableEq, Repr

/-- The check station (Table 15). -/
structure Station where
  state : StationState
  lastServed : ChuteId
  service : List Nat
  rules : Table CheckRule 8
  deriving DecidableEq, Repr

/-! ## The cabinet and its doors (chapters 5 and 7) -/

/-- STANDARD or COIN (Table 19). -/
inductive BoxClass where
  | standard | coin
  deriving DecidableEq, Repr

/-- DELIVER or DISCARD (Tables 25 and 30). -/
inductive Delivery where
  | deliver | discard
  deriving DecidableEq, Repr

/-- TELLER or CARRIER (Table 25). -/
inductive Destination where
  | teller | carrier
  deriving DecidableEq, Repr

/-- A door operation given by a command (Table 25). -/
inductive DoorWork where
  | openDoor
  | inventory
  | handOut (destination : Destination) (named : List Nat)
  deriving DecidableEq, Repr

/-- A door operation in flight: an unattended scan, or the work of a command with its issuing link and its
delivery (R139, Table 25). -/
inductive DoorOp where
  | unattended
  | command (link : LinkId) (work : DoorWork) (delivery : Delivery)
  deriving DecidableEq, Repr

/-- The door machine's state with the fields present in it (Tables 25 and 26). LOCKED holds an operation exactly
while its scan runs. -/
inductive Door where
  | locked
  | scanning (op : DoorOp) (scanMs : Nat)
  | unlocked (op : DoorOp) (windowMs : Nat)
  | opened (forced : Bool) (op : Option DoorOp) (leftOpenMs : Option Nat)
  deriving DecidableEq, Repr

/-- A compartment entry (Table 19). -/
structure Compartment where
  cls : BoxClass
  inService : Bool
  occupants : List Nat
  handling : Option Handling
  overfull : Bool
  foreign : List Nat
  furtherForeign : Nat
  door : Door
  deriving DecidableEq, Repr

/-- The cabinet (R94): the compartment map, the reserve counts and the low marks. -/
structure Cabinet where
  compartments : Table Compartment 48
  reserveStandard : Nat
  reserveCoin : Nat
  lowStandard : Bool
  lowCoin : Bool
  deriving DecidableEq, Repr

/-! ## The claims block (chapter 6) -/

/-- A holder state with the fields present in it (Table 21); the cosign window in ms remaining. -/
inductive Holder where
  | retained
  | free
  | cosignWait (claimant : LinkId) (windowMs : Nat)
  | held (holder : LinkId) (cosigner : Option LinkId)
  deriving DecidableEq, Repr

/-- The safe state (R117). -/
inductive SafeState where
  | locked | opened
  deriving DecidableEq, Repr

/-- The claims block (R116): the nine resources in the order of Table 20, and the safe state. -/
structure Claims where
  resources : Table Holder 9
  safe : SafeState
  deriving DecidableEq, Repr

/-! ## The access windows (chapter 7) -/

/-- A protection window (Table 23); bit k - 1 of `links` stands for link k, bits 0 to 2 of `operations` for OPEN,
HAND_OUT and INVENTORY. -/
structure ProtectionWindow where
  enabled : Bool
  base : BitVec 6
  ignore : BitVec 6
  links : BitVec 3
  operations : BitVec 3
  deriving DecidableEq, Repr

/-- A detection window (Table 24). -/
structure DetectionWindow where
  enabled : Bool
  lower : Nat
  upper : Nat
  timeLower : Nat
  timeUpper : Nat
  links : BitVec 3
  operations : BitVec 3
  deriving DecidableEq, Repr

/-- The window table (R135). -/
structure Windows where
  protection : Table ProtectionWindow 4
  detection : Table DetectionWindow 6
  deriving DecidableEq, Repr

/-! ## The count and carrier block (chapter 8) -/

/-- The open manifest (Table 27). -/
structure Manifest where
  number : Nat
  openedAt : Option (Nat × Nat)
  entries : List Nat
  deriving DecidableEq, Repr

/-- The manifest counter and the open manifest (R163). -/
structure Manifests where
  counter : Nat
  current : Option Manifest
  deriving DecidableEq, Repr

/-! ## The branch clock (chapter 9) -/

/-- The invalid causes (Table 28). -/
inductive InvalidCause where
  | storeLost | initialised | cutoffMissed
  deriving DecidableEq, Repr

/-- Clock valid, with the invalid cause exactly while INVALID (R175). -/
inductive ClockValidity where
  | valid
  | invalid (cause : InvalidCause)
  deriving DecidableEq, Repr

/-- The cause of a date change (Table 28). -/
inductive ChangeCause where
  | cutoff | setClock
  deriving DecidableEq, Repr

/-- The last date change (Table 28). -/
structure DateChange where
  date : Nat
  seconds : Nat
  cause : ChangeCause
  deriving DecidableEq, Repr

/-- The branch clock (Table 28); the cutoff is the parameter of that name (R175). -/
structure Clock where
  seconds : Nat
  date : Nat
  validity : ClockValidity
  lastChange : Option DateChange
  deriving DecidableEq, Repr

/-! ## The retained store (chapter 11) -/

/-- The priority mode (Table 41). -/
inductive PriorityMode where
  | fixed | rotating
  deriving DecidableEq, Repr

/-- The parameters of Table 41, in its order and its units. -/
structure Params where
  weightTolerance : Nat
  coinThreshold : Nat
  settleDelay : Nat
  readAttempts : Nat
  drumWindow : Nat
  sessionIdle : Nat
  loadTimeout : Nat
  transitTimeout : Nat
  priority : PriorityMode
  spaceLow : Nat
  countTolerance : Nat
  unlockWindow : Nat
  leftOpenTime : Nat
  cosignWindow : Nat
  cutoff : Nat
  deriving DecidableEq, Repr

/-- The store-valid indicator (R206), the ms left of INITIALISE STORE while it runs (R207), and the parameters. -/
structure Store where
  valid : Bool
  clearing : Option Nat
  params : Params
  deriving DecidableEq, Repr

/-! ## The custody links (chapters 10 and 11) -/

/-- The completion codes, in the order of Table 36. -/
inductive CompletionCode where
  | ok | wrongState | alreadyCounted | notFound | notClaimed | retained | notPending | isProtected | busy | full
  | duplicate | outOfRange | safeLocked | notOpened | abandoned | incomplete | clockInvalid | storeInvalid
  deriving DecidableEq, Repr

/-- The refusal codes, in the order of Table 37. -/
inductive RefusalCode where
  | executing | resultWaiting | unknown | notForRole | malformed | noResult
  deriving DecidableEq, Repr

/-- The phases of a link (Table 30). -/
inductive Phase where
  | ready | executing | result
  deriving DecidableEq, Repr

/-- The classifications of a reconciliation, in the order R155 names them. -/
inductive Classification where
  | taken | takenUnverified | left | missing | elsewhere | recovered | foreign
  deriving DecidableEq, Repr

/-- The verdicts of a count result (R158). -/
inductive Verdict where
  | agreed | discrepant | unadvised
  deriving DecidableEq, Repr

/-- The seven line counters (Table 38). -/
structure LineCounters where
  framesReceived : Nat
  framesSent : Nat
  checkErrors : Nat
  parityErrors : Nat
  framingErrors : Nat
  overrunErrors : Nat
  refusals : Nat
  deriving DecidableEq, Repr

/-- What a link keeps for one notice kind (R201). -/
structure NoticeCell where
  enabled : Bool
  flag : Bool
  count : Nat
  deriving DecidableEq, Repr

/-- The copy of a chute that READ CHUTE returns (R64). -/
structure ChuteCopy where
  number : ChuteId
  chute : Chute
  intakeClosed : Bool
  isClosed : Bool
  conditions : BitVec 4
  panel : Indication
  deriving DecidableEq, Repr

/-- The copy of a compartment that READ COMPARTMENT returns (R102). -/
structure CompartmentCopy where
  number : CompartmentId
  compartment : Compartment
  pending : Nat
  reserved : Bool
  deriving DecidableEq, Repr

/-- The summary READ COMPARTMENT ALL begins with (R102). -/
structure CabinetSummary where
  standardCount : Nat
  coinCount : Nat
  reserveStandard : Nat
  reserveCoin : Nat
  reservedStandard : List CompartmentId
  reservedCoin : List CompartmentId
  freeStandard : Nat
  freeReservedStandard : Nat
  freeCoin : Nat
  freeReservedCoin : Nat
  lowStandard : Bool
  lowCoin : Bool
  spaceLow : Nat
  deriving DecidableEq, Repr

/-- The summary READ ADVICE begins with (R36). -/
structure AdviceSummary where
  entries : Nat
  openCount : Nat
  matchedCount : Nat
  emptySlots : Nat
  expiryDate : Nat
  expiryCount : Nat
  deriving DecidableEq, Repr

/-- One manifest entry as a summary shows it (R171). -/
structure ManifestEntry where
  number : Nat
  state : RecordState
  compartment : Option CompartmentId
  deriving DecidableEq, Repr

/-- A result record, by the kinds of Table 35a in their order, and the parameters record of R208. -/
inductive ResultRecord where
  | custody (r : Record)
  | advice (a : Advice)
  | adviceSummary (a : AdviceSummary)
  | adviceOutcome (position tag : Nat) (outcome : CompletionCode) (entered : Option (Nat × Option Nat))
  | depositor (index : DepositorId) (d : Depositor)
  | chute (c : ChuteCopy)
  | station (s : Station) (priority : PriorityMode)
  | rule (number : Fin 8) (r : CheckRule)
  | compartment (c : CompartmentCopy)
  | compartmentSummary (c : CabinetSummary)
  | claims (c : Claims) (cosignWindow : Nat)
  | protection (number : Fin 4) (w : ProtectionWindow)
  | detection (number : Fin 6) (w : DetectionWindow)
  | classified (c : Classification) (number : Nat) (copy : Option Record)
  | foreignTag (tag : Nat)
  | counted (r : Record) (v : Verdict) (tolerance : Nat)
  | manifestSummary (counter : Nat) (current : Option (Nat × Option (Nat × Nat))) (outCarrier : Nat)
      (entries : List ManifestEntry)
  | manifestEntry (e : ManifestEntry)
  | clock (c : Clock) (cutoff : Nat)
  | lineCounters (number : LinkId) (c : LineCounters)
  | dateCounts (c : DateCounts) (date : Option Nat)
  | notices (cells : Table NoticeCell 20)
  | handOutRefusal (number : Nat) (code : CompletionCode)
  | parameters (values : List (Nat × Nat))
  deriving DecidableEq, Repr

/-- A link's long command (Table 30). -/
structure LongCommand where
  command : Command
  tag : Nat
  delivery : Delivery
  deriving DecidableEq, Repr

/-- A frame of the part, waiting in a transmit queue (R188, R189). `fresh` marks the DONE of SET FORCED ERROR,
which is sent with a good check and is not counted (R199). A report carries its number and, for each source, the
source number and the contents. -/
inductive Frame where
  | done (tag : Nat) (code : CompletionCode) (count : Nat) (fresh : Bool)
  | result (tag : Nat) (records : List ResultRecord) (final : Bool)
  | refusal (tag : Nat) (code : RefusalCode) (refused : Nat) (phase : Phase)
  | report (number : Nat) (items : List (Nat × List Byte))
  deriving DecidableEq, Repr

/-- The receiver (Table 30); IN_FRAME with the characters taken since the start mark (R187). -/
inductive Receiver where
  | hunting
  | inFrame (taken : List Byte)
  | lineLow
  deriving DecidableEq, Repr

/-- The mode and cadence of a report program: SECONDS with its timer in ms, BAGS with its bag count (R204). -/
inductive Cadence where
  | seconds (n : Nat) (timerMs : Nat)
  | bags (n : Nat) (count : Nat)
  deriving DecidableEq, Repr

/-- A report program (R204), with the reports it has produced (R205). -/
structure Program where
  cadence : Cadence
  sources : List Nat
  produced : Nat
  deriving DecidableEq, Repr

/-- A custody link (Table 30); `sending` is the last frame whose sending was started, as the bytes on the line. -/
structure Link where
  phase : Phase
  receiver : Receiver
  present : Bool
  held : List ResultRecord
  long : Option LongCommand
  queue : List Frame
  sending : List Byte
  counters : LineCounters
  forced : Nat
  forcedCount : Nat
  notices : Table NoticeCell 20
  program : Option Program
  deriving DecidableEq, Repr

/-! ## The machine -/

/-- No rule of the manual stops the part, so no meaning faults: the type has no constructor. -/
inductive Fault where
  deriving DecidableEq, Repr

/-- The reasons for which a step has no meaning. -/
inductive Refusal where
  /-- Raised by an arm of `exec` whose command has no meaning yet; safe. No arm is one at present. -/
  | notModelled (mnemonic : String)
  deriving DecidableEq, Repr

/-- The PQ448, and the queue of the commands waiting for it, first in, first out. -/
structure State where
  register : Register
  advices : AdviceTable
  roster : Table (Option Depositor) 128
  chutes : Table Chute 4
  intakeClosed : Bool
  station : Station
  cabinet : Cabinet
  claims : Claims
  windows : Windows
  manifest : Manifests
  clock : Clock
  store : Store
  links : Table Link 4
  pending : List Instr
  deriving DecidableEq, Repr

/-! ## Values after a start with the store invalid -/

/-- Eight counts of 0 (R24). -/
def DateCounts.zero : DateCounts := ⟨0, 0, 0, 0, 0, 0, 0, 0⟩

/-- Seven counts of 0 (R200). -/
def LineCounters.zero : LineCounters := ⟨0, 0, 0, 0, 0, 0, 0⟩

/-- The register without records (R24). R24 gives the last-date business date 0 for the completion of INITIALISE STORE;
that it is 0 after a start with the store invalid too is the model's choice (DESIGN CHOICE, log entry 31). -/
def Register.empty : Register :=
  { records := [], nextNumber := 1, reservations := 0, current := .zero, lastCounts := .zero, lastDate := 0,
    walk := none }

/-- The advice table without entries (R35, R45). -/
def AdviceTable.empty : AdviceTable := { entries := [], expiryDate := 0, expiryCount := 0 }

/-- A chute at power-up with the store invalid (R65). -/
def Chute.initial : Chute := { state := .idle, masked := false, hold := none, queue := [] }

/-- A check rule at its default (R85). -/
def CheckRule.initial : CheckRule := { quantity := .weight, condition := .off, reference := 0, action := .mark }

/-- The station at power-up with the store invalid (R93). -/
def Station.initial : Station := { state := .idle, lastServed := 3, service := [], rules := .fill .initial }

/-- Compartment `c` of the default layout with its door LOCKED (R115). -/
def Compartment.initial (c : CompartmentId) : Compartment :=
  { cls := if c.val < 40 then .standard else .coin, inService := true, occupants := [], handling := none,
    overfull := false, foreign := [], furtherForeign := 0, door := .locked }

/-- The cabinet in the default layout, every door LOCKED (R115). -/
def Cabinet.initial : Cabinet :=
  { compartments := .tabulate Compartment.initial, reserveStandard := 4, reserveCoin := 1, lowStandard := false,
    lowCoin := false }

/-- The claims block after every start (R133). -/
def Claims.initial : Claims := { resources := .fill .retained, safe := .locked }

/-- A protection window at its default (R135). -/
def ProtectionWindow.initial : ProtectionWindow :=
  { enabled := false, base := 0, ignore := 0, links := 0, operations := 0 }

/-- A detection window at its default (R135). -/
def DetectionWindow.initial : DetectionWindow :=
  { enabled := false, lower := 0, upper := 47, timeLower := 0, timeUpper := 86399, links := 0, operations := 0 }

/-- The window table at its defaults (R135). -/
def Windows.initial : Windows := { protection := .fill .initial, detection := .fill .initial }

/-- No manifest open, counter 1 (R174). -/
def Manifests.initial : Manifests := { counter := 1, current := none }

/-- The clock INVALID for a cause, reading 0 (R184). -/
def Clock.cleared (cause : InvalidCause) : Clock :=
  { seconds := 0, date := 0, validity := .invalid cause, lastChange := none }

/-- The defaults of Table 41. -/
def Params.initial : Params :=
  { weightTolerance := 60, coinThreshold := 2500, settleDelay := 600, readAttempts := 3, drumWindow := 15,
    sessionIdle := 45, loadTimeout := 5, transitTimeout := 8, priority := .rotating, spaceLow := 4,
    countTolerance := 0, unlockWindow := 20, leftOpenTime := 180, cosignWindow := 30, cutoff := 57600 }

/-- A notice kind ENABLED, clear and at 0 (R203). -/
def NoticeCell.initial : NoticeCell := { enabled := true, flag := false, count := 0 }

/-- A link after a start, before the start's notices: `present` and `low` are what its lines read (R200, R203,
R204). -/
def Link.initial (present low : Bool) : Link :=
  { phase := .ready, receiver := if low then .lineLow else .hunting, present := present, held := [],
    long := none, queue := [], sending := [], counters := .zero, forced := 0, forcedCount := 0,
    notices := .fill .initial, program := none }

/-- A link at State.reset: PRESENT, HUNTING, with CLOCK_INVALID and STORE_LOST (notices 17 and 19 of Table 39)
raised once (R203). -/
def Link.atReset : Link :=
  { Link.initial true false with
    notices := ((Table.fill NoticeCell.initial).set 16 ⟨true, true, 1⟩).set 18 ⟨true, true, 1⟩ }

/-- The machine right after reset: a power-up with the store invalid (R206), every door closed, every present
line and every receive line high (DESIGN CHOICE, log entry 3: unsafe where another start is meant). -/
def State.reset : State :=
  { register := .empty, advices := .empty, roster := .fill none, chutes := .fill .initial,
    intakeClosed := false, station := .initial, cabinet := .initial, claims := .initial, windows := .initial,
    manifest := .initial, clock := .cleared .storeLost,
    store := { valid := false, clearing := none, params := .initial }, links := .fill .atReset, pending := [] }

end Sys2Proof.Machine
end

