-- ==== Sys2Proof/Machine/Operands.lean ====
section
/-! DEFINITION. Operand forms: the lists of named values in the manual's order, a named value read by its place
(R191), the numbers of equipment that operands name, the parameters by number (Table 41), and the range tests of
command fields. -/

namespace Sys2Proof.Machine

/-! ## Named values by their place in the manual's list -/

/-- The value at a place counted from 1 (R191), absent for a place outside the list. -/
def atPlace {α : Type} (values : List α) (code : Nat) : Option α :=
  if code = 0 then none else values[code - 1]?

/-- The twelve record states (Table 7). -/
def recordStates : List RecordState :=
  [.waiting, .checking, .routing, .stored, .held, .outTeller, .outCarrier, .counted, .dispatched, .stranded,
   .missing, .void]

/-- The twelve hold reasons (Table 9). -/
def holdReasons : List Reason :=
  [.unreadable, .unadvised, .wrongDepositor, .duplicate, .weight, .tamper, .stale, .rule, .noSpace, .misrouted,
   .recovered, .tagChanged]

/-- The bag kinds (Table 3). -/
def bagKinds : List BagKind := [.note, .coin]

/-- The handlings (Table 3). -/
def handlings : List Handling := [.branchCount, .through]

/-- The compartment classes (Table 19). -/
def boxClasses : List BoxClass := [.standard, .coin]

/-- The depositor states (Table 11). -/
def depositorStates : List DepositorState := [.active, .suspended]

/-- The rule quantities (Table 17). -/
def quantities : List Quantity :=
  [.weight, .weightDeviation, .declaredValue, .arrivalTime, .depositorBags, .adviceLag]

/-- The rule conditions (Table 17). -/
def conditions : List Condition := [.eq, .ne, .gt, .ge, .lt, .le, .off]

/-- The rule actions (Table 17). -/
def ruleActions : List RuleAction := [.hold, .mark]

/-- The safe states (R117). -/
def safeStates : List SafeState := [.locked, .opened]

/-- The priority modes (Table 41). -/
def priorityModes : List PriorityMode := [.fixed, .rotating]

/-! ## Numbers of equipment -/

/-- A number below `n` as an index; absent where it is out of range. -/
def index (n v : Nat) : Option (Fin n) := if h : v < n then some ⟨v, h⟩ else none

/-- A resource of Table 20 by its place, counted from 1. -/
def resourceOf (code : Nat) : Option (Fin 9) := if code = 0 then none else index 9 (code - 1)

/-- The link that a member of a subset of links 1, 2 and 3 stands for is at bit k - 1; link 0 is in no such set
(Tables 23 and 24). -/
def inLinkSet (links : BitVec 3) (l : LinkId) : Bool := l.val != 0 && links.getLsbD (l.val - 1)

/-! ## Field ranges -/

/-- Table 10: a bag kind of NOTE or COIN, or DEFAULT (R28), which is absent here. -/
def adviceKind (code : Nat) : Option (Option BagKind) :=
  if code = 3 then some none else (atPlace bagKinds code).map some

/-- R28: every field of an advice entry lies in its range of Table 10. -/
def adviceInRange (a : AdviceArgs) : Bool :=
  isTag a.tag && (a.depositor < 128) && (a.date ≤ Config.lastDate) && (a.notes ≤ Config.maxAmount) &&
  (a.coins ≤ Config.maxAmount) && (a.weight.all fun w => 1 ≤ w && w ≤ Config.overRange) &&
  (adviceKind a.kind).isSome && (atPlace handlings a.handling).isSome

/-- R42: every field of SET DEPOSITOR lies in its range; the clear-totals choice is 1 for set and 2 for not set
(log entry 10). -/
def depositorInRange (a : DepositorArgs) : Bool :=
  1 ≤ a.credential && a.credential ≤ Config.maxCredential && 1 ≤ a.allowance && a.allowance ≤ 20 &&
  (atPlace depositorStates a.state).isSome && (atPlace bagKinds a.kind).isSome && a.permissions < 16 &&
  (a.clearTotals == 1 || a.clearTotals == 2)

/-- R85: a check rule from the fields of SET RULE, absent where a field is outside Table 17. -/
def ruleOf (a : RuleArgs) : Option CheckRule :=
  match atPlace quantities a.quantity, atPlace conditions a.condition, atPlace ruleActions a.action with
  | some q, some c, some m =>
    if -2147483648 ≤ a.reference ∧ a.reference ≤ 2147483647 then
      some { quantity := q, condition := c, reference := a.reference, action := m }
    else none
  | _, _, _ => none

/-- R138: a protection window from its fields, absent where a field is outside Table 23 (enable 1 ENABLED, 2
DISABLED). -/
def protectionOf (enable base ignore links operations : Nat) : Option ProtectionWindow :=
  if (enable == 1 || enable == 2) && base < 64 && ignore < 64 && links < 8 && operations < 8 then
    some { enabled := enable == 1, base := BitVec.ofNat 6 base, ignore := BitVec.ofNat 6 ignore,
           links := BitVec.ofNat 3 links, operations := BitVec.ofNat 3 operations }
  else none

/-- R138: a detection window from its fields, absent where a field is outside Table 24 or the compartment lower
bound is above the upper. -/
def detectionOf (enable lower upper timeLower timeUpper links operations : Nat) : Option DetectionWindow :=
  if (enable == 1 || enable == 2) && lower ≤ upper && upper < 48 && timeLower ≤ Config.lastSecond &&
      timeUpper ≤ Config.lastSecond && links < 8 && operations < 8 then
    some { enabled := enable == 1, lower := lower, upper := upper, timeLower := timeLower,
           timeUpper := timeUpper, links := BitVec.ofNat 3 links, operations := BitVec.ofNat 3 operations }
  else none

/-- R204: a list of report sources, each 1 to 22 and none repeated. -/
def sourcesInRange (sources : List Nat) : Bool :=
  sources.all (fun k => 1 ≤ k && k ≤ 22) && decide sources.Nodup

/-! ## The parameters by number (Table 41) -/

/-- The range of a parameter; the priority mode by its place in Table 41. -/
def parameterRange (number : Nat) : Option (Nat × Nat) :=
  match number with
  | 1 => some (5, 2000) | 2 => some (500, 10000) | 3 => some (200, 2000) | 4 => some (1, 5) | 5 => some (5, 60)
  | 6 => some (10, 180) | 7 => some (2, 20) | 8 => some (2, 30) | 9 => some (1, 2) | 10 => some (0, 40)
  | 11 => some (0, 100000) | 12 => some (5, 60) | 13 => some (30, 900) | 14 => some (5, 120)
  | 15 => some (0, 86399) | _ => none

/-- The value given lies in the range of the parameter given (R208). -/
def parameterInRange (number value : Nat) : Bool :=
  match parameterRange number with
  | some (lo, hi) => lo ≤ value && value ≤ hi
  | none => false

/-- The link that sets a parameter: 1 the platform, 0 the time-lock (Table 41). -/
def parameterLink (number : Nat) : LinkId := if number ≤ 11 then 1 else 0

/-- The value of a parameter. -/
def Params.read (p : Params) (number : Nat) : Nat :=
  match number with
  | 1 => p.weightTolerance | 2 => p.coinThreshold | 3 => p.settleDelay | 4 => p.readAttempts
  | 5 => p.drumWindow | 6 => p.sessionIdle | 7 => p.loadTimeout | 8 => p.transitTimeout
  | 9 => (match p.priority with | .fixed => 1 | .rotating => 2)
  | 10 => p.spaceLow | 11 => p.countTolerance | 12 => p.unlockWindow | 13 => p.leftOpenTime
  | 14 => p.cosignWindow | 15 => p.cutoff | _ => 0

/-- The parameters with one of them written. -/
def Params.write (p : Params) (number value : Nat) : Params :=
  match number with
  | 1 => { p with weightTolerance := value } | 2 => { p with coinThreshold := value }
  | 3 => { p with settleDelay := value } | 4 => { p with readAttempts := value }
  | 5 => { p with drumWindow := value } | 6 => { p with sessionIdle := value }
  | 7 => { p with loadTimeout := value } | 8 => { p with transitTimeout := value }
  | 9 => { p with priority := if value = 1 then .fixed else .rotating }
  | 10 => { p with spaceLow := value } | 11 => { p with countTolerance := value }
  | 12 => { p with unlockWindow := value } | 13 => { p with leftOpenTime := value }
  | 14 => { p with cosignWindow := value } | 15 => { p with cutoff := value } | _ => p

/-- The parameters a link's role sets, in the order of Table 41 (R208). -/
def parametersOf (l : LinkId) : List Nat := if l = 0 then [12, 13, 14, 15] else [1, 2, 3, 4, 5, 6, 7, 8, 9, 10, 11]

end Sys2Proof.Machine
end

