-- ==== Sys2Proof/Machine/Flags.lean ====
section
/-! DEFINITION. Notice flags and how they are raised (R201), the closing conditions and the panels (R47, R50),
and the lines and drives that follow from the state. -/

namespace Sys2Proof.Machine

/-- The notice kinds, in the order of Table 39. -/
inductive Notice where
  | heldBag | spaceLow | stationBlocked | stationFault | chuteFault | stranded | doorForced | doorLeftOpen
  | openAtLock | missing | foreign | recovered | isProtected | detected | cosignLapsed | dateRolled | clockInvalid
  | powerReturn | storeLost | discrepancy
  deriving DecidableEq, Repr

/-- The cell of a notice kind: its number in Table 39 less 1. -/
def Notice.cell : Notice → Fin 20
  | .heldBag => 0 | .spaceLow => 1 | .stationBlocked => 2 | .stationFault => 3 | .chuteFault => 4
  | .stranded => 5 | .doorForced => 6 | .doorLeftOpen => 7 | .openAtLock => 8 | .missing => 9 | .foreign => 10
  | .recovered => 11 | .isProtected => 12 | .detected => 13 | .cosignLapsed => 14 | .dateRolled => 15
  | .clockInvalid => 16 | .powerReturn => 17 | .storeLost => 18 | .discrepancy => 19

/-- R201: `m` raises at one cell; a DISABLED kind is left as it was and the count stays at 255. -/
def NoticeCell.raised (m : Nat) (c : NoticeCell) : NoticeCell :=
  if c.enabled then { c with flag := true, count := min 255 (c.count + m) } else c

/-- `m` raises of one kind at one link. -/
def Link.raised (k : Notice) (m : Nat) (l : Link) : Link :=
  { l with notices := l.notices.set k.cell ((l.notices.get k.cell).raised m) }

/-- R201: a kind raised `m` times in one event, on all four links. -/
def raiseTimes (k : Notice) (m : Nat) (s : State) : State :=
  if m = 0 then s else { s with links := s.links.map (Link.raised k m) }

/-- R201: a kind raised once. -/
def raise (k : Notice) (s : State) : State := raiseTimes k 1 s

/-- R201: the attention line of a link is driven while at least one of its flags is set. -/
def Link.attention (l : Link) : Bool := l.notices.cells.any (·.flag)

/-! ## Closed chutes and panels -/

/-- R175: the clock is VALID. -/
def Clock.isValid (c : Clock) : Bool :=
  match c.validity with
  | .valid => true
  | .invalid _ => false

/-- R47: the closing conditions that hold for a chute, in the order of the rule: mask, intake close, clock, store.
The store reads INVALID while INITIALISE STORE runs (R207). -/
def closingConditions (s : State) (c : ChuteId) : List Bool :=
  [(s.chutes.get c).masked, s.intakeClosed, !s.clock.isValid, !s.store.valid]

/-- R47: a chute is closed while any closing condition holds. -/
def chuteClosed (s : State) (c : ChuteId) : Bool := (closingConditions s c).any id

/-- R50: the indication of a chute's state; READY or CLOSED in IDLE as the condition stands (R47). -/
def stateIndication (s : State) (c : ChuteId) : Indication :=
  match (s.chutes.get c).state with
  | .idle => if chuteClosed s c then .closed else .ready
  | .session _ _ => .sessionOpen
  | .drum _ _ _ => .turning
  | .fault => .fault

/-- R50: the panel shows the held indication while its hold runs, and the indication of the state otherwise. -/
def panel (s : State) (c : ChuteId) : Indication :=
  match (s.chutes.get c).hold with
  | some (i, _) => i
  | none => stateIndication s c

/-! ## Drives, releases and locks -/

/-- R54 to R57: the drum drive runs exactly during a drum turn. -/
def drumDrive (s : State) (c : ChuteId) : Bool :=
  match (s.chutes.get c).state with
  | .drum _ _ _ => true
  | _ => false

/-- R70, R74, R75: the release open at the station, that of the requester being loaded. -/
def openRelease (s : State) : Option Source :=
  match s.station.state with
  | .loading _ src _ => some src
  | _ => none

/-- R106, R109: the diverter release is open and the diverter steered while a transit runs. -/
def diverter (s : State) : Option CompartmentId :=
  match s.station.state with
  | .placing _ _ target _ => some target
  | _ => none

/-- Table 26: the lock drive is applied exactly in LOCKED. -/
def Door.lockApplied : Door → Bool
  | .locked => true
  | .scanning _ _ => true
  | .unlocked _ _ => false
  | .opened _ _ _ => false

end Sys2Proof.Machine
end

