-- ==== Sys2Proof/Machine/Ops.lean ====
section
/-! DEFINITION. The named operations that the commands share: over the register, the roster, the chutes, the
station's arbiter, the cabinet's allocation, the door machines, the claims and the links. -/

namespace Sys2Proof.Machine

/-! ## Arithmetic with a bound -/

/-- One more, staying at `limit` once there. -/
def satInc (limit n : Nat) : Nat := if n < limit then n + 1 else n

/-! ## Sets of reasons (R12) -/

/-- The bit of a reason (Table 34). -/
def Reason.bit : Reason → Nat
  | .unreadable => 0 | .unadvised => 1 | .wrongDepositor => 2 | .duplicate => 3 | .weight => 4 | .tamper => 5
  | .stale => 6 | .rule => 7 | .noSpace => 8 | .misrouted => 9 | .recovered => 10 | .tagChanged => 11

/-- The set of one reason. -/
def Reason.only (r : Reason) : ReasonSet := (1#12) <<< r.bit

/-- The reason is in the set. -/
def hasReason (set : ReasonSet) (r : Reason) : Bool := set.getLsbD r.bit

/-- The set with the reason added. -/
def addReason (set : ReasonSet) (r : Reason) : ReasonSet := set ||| r.only

/-- The set with the reason added when the test holds. -/
def addReasonIf (test : Bool) (r : Reason) (set : ReasonSet) : ReasonSet := if test then addReason set r else set

/-- The set with the reason removed. -/
def removeReason (set : ReasonSet) (r : Reason) : ReasonSet := set &&& ~~~r.only

/-! ## The register (chapter 1) -/

/-- R5: COUNTED, DISPATCHED and VOID are the terminal states. -/
def RecordState.isTerminal : RecordState → Bool
  | .counted => true
  | .dispatched => true
  | .void => true
  | _ => false

/-- The record that holds a custody number. -/
def State.find (s : State) (n : Nat) : Option Record := s.register.records.find? fun r => r.number == n

/-- The records with `f` applied to the one numbered `n`. -/
def modifyIn (n : Nat) (f : Record → Record) (records : List Record) : List Record :=
  records.map fun r => if r.number = n then f r else r

/-- The register with `f` applied to the record numbered `n`; nothing changes where none has that number. -/
def modifyRecord (n : Nat) (f : Record → Record) (s : State) : State :=
  { s with register := { s.register with records := modifyIn n f s.register.records } }

/-- R21: the current per-date counters changed. -/
def countUp (f : DateCounts → DateCounts) (s : State) : State :=
  { s with register := { s.register with current := f s.register.current } }

/-- R10: 320 minus the records minus the outstanding reservations. -/
def freeRecords (s : State) : Nat := Config.maxRecords - s.register.records.length - s.register.reservations

/-- R1: the number of records in a state. -/
def stateCount (s : State) (st : RecordState) : Nat := s.register.records.countP fun r => r.state == st

/-- R9: the counter advanced; from 65,535 it gives 1. -/
def advanceNumber (n : Nat) : Nat := if n < Config.maxCustody then n + 1 else 1

/-- R9: the first free value at or after `c`, found within `fuel` advances. -/
def nextFree : Nat → List Nat → Nat → Nat
  | 0, _, c => c
  | fuel + 1, held, c => if held.contains c then nextFree fuel held (advanceNumber c) else c

/-- R9: the custody number the next record gets; among one more values than records held one is free. -/
def issuedNumber (r : Register) : Nat := nextFree r.records.length (r.records.map Record.number) r.nextNumber

/-- R1: a record put in its place in ascending custody-number order. -/
def insertRecord (r : Record) : List Record → List Record
  | [] => [r]
  | x :: xs => if r.number < x.number then r :: x :: xs else x :: insertRecord r xs

/-- R7: a new record: check-derived, compartment, count and manifest fields absent, reasons and marks empty. -/
def newRecord (n : Nat) (d : DepositorId) (c : ChuteId) (k : Clock) (st : RecordState) : Record :=
  { number := n, depositor := d, source := c, arrivalDate := k.date, arrivalSeconds := k.seconds, tag := none,
    tamper := none, weight := none, advice := none, kind := none, handling := none, reasons := 0,
    marks := .fill none, detected := false, compartment := none, state := st, count := none, manifest := none }

/-- R39: the roster charged for a record created: remaining less 1 and not below 0, arrivals this date one more. -/
def Depositor.charged (d : Depositor) : Depositor :=
  { d with remaining := d.remaining - 1, arrivals := satInc 255 d.arrivals }

/-- A depositor entry changed; an empty slot stays empty. -/
def modifyDepositor (d : DepositorId) (f : Depositor → Depositor) (s : State) : State :=
  { s with roster := s.roster.set d ((s.roster.get d).map f) }

/-- R7, R8, R9, R39: a record created at a chute for a depositor: it consumes the chute's reservation, counts
under arrivals and charges the roster in the same event. -/
def createRecord (c : ChuteId) (d : DepositorId) (st : RecordState) (s : State) : State :=
  modifyDepositor d Depositor.charged
    { s with
      register :=
        { s.register with
          records := insertRecord (newRecord (issuedNumber s.register) d c s.clock st) s.register.records
          nextNumber := advanceNumber (issuedNumber s.register)
          reservations := s.register.reservations - 1
          current := { s.register.current with arrivals := satInc 65535 s.register.current.arrivals } } }

/-- R10: a drum reservation returned. -/
def returnReservation (s : State) : State :=
  { s with register := { s.register with reservations := s.register.reservations - 1 } }

/-- R4, R5: a record made STRANDED; its compartment field is removed and every other field kept. -/
def Record.stranded (r : Record) : Record := { r with state := .stranded, compartment := none }

/-- R12: a reason removed; when the last reason of a HELD record goes, it becomes STORED in the same event. -/
def Record.without (r : Record) (x : Reason) : Record :=
  let rest := removeReason r.reasons x
  { r with reasons := rest, state := if r.state = .held ∧ rest = 0 then .stored else r.state }

/-- A non-terminal record other than number `n` carries the tag (R14). -/
def tagCarriedElsewhere (s : State) (n t : Nat) : Bool :=
  s.register.records.any fun r => r.number != n && !r.state.isTerminal && r.tag == some t

/-- R163: the custody number stands in the open manifest. -/
def inManifest (s : State) (n : Nat) : Bool :=
  match s.manifest.current with
  | some m => m.entries.contains n
  | none => false

/-- R168: the custody number leaves the open manifest, if it stands there. -/
def dropEntry (n : Nat) (s : State) : State :=
  match s.manifest.current with
  | none => s
  | some m =>
    { s with manifest := { s.manifest with current := some { m with entries := m.entries.filter (· != n) } } }

/-! ## The advice table (chapter 2) -/

/-- R27: the entry that carries a tag. -/
def adviceByTag (s : State) (t : Nat) : Option Advice := s.advices.entries.find? fun a => a.tag == t

/-- The entry in a slot. -/
def adviceAt (s : State) (i : Nat) : Option Advice := s.advices.entries.find? fun a => a.index == i

/-- R26: the number of OPEN entries. -/
def openAdvices (s : State) : Nat := s.advices.entries.countP fun a => a.matched.isNone

/-- R34: the table after the removal of every OPEN entry dated before the new date less 1, with the record of the
last expiry written. -/
def AdviceTable.expired (date : Nat) (t : AdviceTable) : AdviceTable :=
  let stays := fun a : Advice => a.matched.isSome || decide (date ≤ a.date + 1)
  { entries := t.entries.filter stays, expiryDate := date,
    expiryCount := t.entries.length - (t.entries.filter stays).length }

/-- R35: the table without the entry in a slot. -/
def AdviceTable.removed (i : Nat) (t : AdviceTable) : AdviceTable :=
  { t with entries := t.entries.filter fun a => a.index != i }

/-- R40: an entry renewed: remaining at its allowance, arrivals this date 0. -/
def Depositor.renewed (d : Depositor) : Depositor := { d with remaining := d.allowance, arrivals := 0 }

/-! ## Links: phases, answers and the end of long commands (chapter 10) -/

/-- The link of a number. -/
def State.link (s : State) (l : LinkId) : Link := s.links.get l

/-- A link changed. -/
def modifyLink (l : LinkId) (f : Link → Link) (s : State) : State :=
  { s with links := s.links.set l (f (s.links.get l)) }

/-- What an owner answers: a command completed with its code and result records, or a long command accepted. -/
inductive Answer where
  | done (code : CompletionCode) (results : List ResultRecord) (s : State)
  | started (s : State)

/-- A REFUSAL waiting in a transmit queue. -/
def Frame.isRefusal : Frame → Bool
  | .refusal _ _ _ _ => true
  | _ => false

/-- A REPORT waiting in a transmit queue. -/
def Frame.isReport : Frame → Bool
  | .report _ _ => true
  | _ => false

/-- R189: a frame that takes the place of one of its kind still waiting, or else joins the end. -/
def replaceOrAppend (same : Frame → Bool) (f : Frame) (queue : List Frame) : List Frame :=
  if queue.any same then queue.map (fun x => if same x then f else x) else queue ++ [f]

/-- R192: a completed command's results held and its DONE queued; the phase follows the count. -/
def Link.completed (tag : Nat) (code : CompletionCode) (results : List ResultRecord) (fresh : Bool) (k : Link) : Link :=
  { k with held := results, phase := if results.isEmpty then .ready else .result,
           queue := k.queue ++ [.done tag code results.length fresh] }

/-- R193: the end of the link's long command, with its DONE under DELIVER and nothing under DISCARD. -/
def Link.longEnded (code : CompletionCode) (results : List ResultRecord) (k : Link) : Link :=
  match k.long with
  | none => k
  | some c =>
    match c.delivery with
    | .deliver => { k.completed c.tag code results false with long := none }
    | .discard => { k with long := none }

/-- R193: an owner reports the end of a link's long command. -/
def endLong (l : LinkId) (code : CompletionCode) (results : List ResultRecord) (s : State) : State :=
  modifyLink l (Link.longEnded code results) s

/-- R195: a REFUSAL produced and counted; it takes the place of one still waiting (R189). -/
def Link.refusedWith (tag : Nat) (code : RefusalCode) (refused : Nat) (k : Link) : Link :=
  { k with
    queue := replaceOrAppend Frame.isRefusal (.refusal tag code refused k.phase) k.queue
    counters := { k.counters with refusals := satInc Config.maxLineCount k.counters.refusals } }

/-- R187, R198: a frame received whole: the receiver hunts again and the frame is counted. -/
def Link.receivedWhole (k : Link) : Link :=
  { k with
    receiver := .hunting
    counters := { k.counters with framesReceived := satInc Config.maxLineCount k.counters.framesReceived } }

/-- R186, R197: a link takes no character while ABSENT or LINE_LOW. -/
def Link.hears (k : Link) : Bool := k.present && k.receiver != .lineLow

/-- R192: the owner's answer carried out at the link; the DONE of SET FORCED ERROR is marked (R199). -/
def Answer.applied (l : LinkId) (tag : Nat) (c : Command) : Answer → State
  | .done code results s => modifyLink l (Link.completed tag code results (c == .setForcedError)) s
  | .started s =>
    modifyLink l (fun k => { k with phase := .executing, long := some ⟨c, tag, .deliver⟩ }) s

/-- R192 to R195: the frame of a command received whole on a link: refused by the phase, by the role or by its
form, or handed to its owner in the same event. COLLECT and DISCARD have an operation of their own. -/
def takeCommand (l : LinkId) (tag : Nat) (c : Command) (roleOk formOk : Bool) (owner : State → Answer)
    (s : State) : State :=
  if (s.link l).hears then
    let s := modifyLink l Link.receivedWhole s
    match (s.link l).phase with
    | .executing => modifyLink l (Link.refusedWith tag .executing c.code) s
    | .result => modifyLink l (Link.refusedWith tag .resultWaiting c.code) s
    | .ready =>
      if !roleOk then modifyLink l (Link.refusedWith tag .notForRole c.code) s
      else if !formOk then modifyLink l (Link.refusedWith tag .malformed c.code) s
      else if c.isLong && (s.link l).long.isSome then (Answer.done .busy [] s).applied l tag c
      else (owner s).applied l tag c
  else s

/-- R192: a command whose role is that of Table 35 and whose fields are always in a form its rule allows. -/
def takePlain (l : LinkId) (tag : Nat) (c : Command) (owner : State → Answer) (s : State) : State :=
  takeCommand l tag c (c.allowed l) true owner s

/-- The answer of a command refused with a completion code and no result records: the state is left as it was. -/
def declined (code : CompletionCode) (s : State) : Answer := .done code [] s

/-! ## Chutes (chapter 3) -/

/-- The chute of a number. -/
def State.chute (s : State) (c : ChuteId) : Chute := s.chutes.get c

/-- A chute changed. -/
def modifyChute (c : ChuteId) (f : Chute → Chute) (s : State) : State :=
  { s with chutes := s.chutes.set c (f (s.chutes.get c)) }

/-- R50: the chute enters a state with an indication that is held for 4 s. -/
def Chute.entered (st : ChuteState) (i : Indication) (c : Chute) : Chute :=
  { c with state := st, hold := some (i, Config.panelHoldMs) }

/-- R50: an indication shown and held for 4 s, the state left as it is. -/
def Chute.showing (i : Indication) (c : Chute) : Chute := { c with hold := some (i, Config.panelHoldMs) }

/-- The chute enters a state whose own indication the panel shows at once. -/
def Chute.shownIn (st : ChuteState) (c : Chute) : Chute := { c with state := st, hold := none }

/-- R47, R49, R50: an event sets the indication CLOSED at an IDLE chute: during a hold it takes the held
indication's place and restarts the hold; without one the panel follows the condition (log entry 12). -/
def Chute.shownClosed (c : Chute) : Chute :=
  { c with hold := c.hold.map fun _ => (.closed, Config.panelHoldMs) }

/-- R49, R50: what a closing condition that begins does to a chute; a session that it ends shows CLOSED for 4 s. -/
def Chute.closing (c : Chute) : Chute :=
  match c.state with
  | .idle => c.shownClosed
  | .session _ _ => c.entered .idle .closed
  | .drum d ms _ => { c with state := .drum d ms true }
  | .fault => c

/-- R60: a chute enters FAULT; one already in FAULT is left as it is. `returned` says that the chute still holds
its reservation, which goes back to the register. -/
def faultChute (c : ChuteId) (returned : Bool) (s : State) : State :=
  if (s.chute c).state = .fault then s
  else
    raise .chuteFault (modifyChute c (Chute.shownIn .fault) (if returned then returnReservation s else s))

/-- The chute holds a drum reservation (R46). -/
def Chute.inDrum (c : Chute) : Bool :=
  match c.state with
  | .drum _ _ _ => true
  | _ => false

/-! ## The station and its arbiter (chapter 4) -/

/-- The station's state changed. -/
def setStation (st : StationState) (s : State) : State := { s with station := { s.station with state := st } }

/-- R68: the order in which the throats are considered: from 0 in fixed mode, from the one after the last-served
throat in rotating mode. -/
def throatOrder (p : PriorityMode) (last : ChuteId) : List ChuteId :=
  match p with
  | .fixed => [0, 1, 2, 3]
  | .rotating => [last + 1, last + 2, last + 3, last]

/-- R68: a throat is eligible with a bag while its chute is not in FAULT and its queue is not empty. -/
def throatReady (s : State) (c : ChuteId) : Bool := (s.chute c).state != .fault && !(s.chute c).queue.isEmpty

/-- R68: the requester the arbiter chooses. -/
def chosenRequester (s : State) : Option Source :=
  if s.station.service.isEmpty then
    ((throatOrder s.store.params.priority s.station.lastServed).find? (throatReady s)).map .throat
  else some .service

/-- The queue of a requester. -/
def queueOf (s : State) : Source → List Nat
  | .service => s.station.service
  | .throat c => (s.chute c).queue

/-- R70: the head leaves the queue of a requester; a throat grant writes the last-served throat (R69). -/
def popQueue (src : Source) (s : State) : State :=
  match src with
  | .service => { s with station := { s.station with service := s.station.service.tail } }
  | .throat c =>
    modifyChute c (fun k => { k with queue := k.queue.tail }) { s with station := { s.station with lastServed := c } }

/-- R70: the record at the head of a requester's queue becomes CHECKING and the station loads it. -/
def grant (src : Source) (s : State) : State :=
  match queueOf s src with
  | [] => s
  | n :: _ =>
    setStation (.loading n src (s.store.params.loadTimeout * 1000))
      (modifyRecord n (fun r => { r with state := .checking }) (popQueue src s))

/-- R68: the arbiter makes a grant whenever the station is IDLE and an eligible requester has a bag. -/
def arbitrate (s : State) : State :=
  if s.station.state = .idle then
    match chosenRequester s with
    | some src => grant src s
    | none => s
  else s

/-! ## The cabinet (chapter 5) -/

/-- The entry of a compartment. -/
def State.box (s : State) (c : CompartmentId) : Compartment := s.cabinet.compartments.get c

/-- A compartment entry changed. -/
def modifyBox (c : CompartmentId) (f : Compartment → Compartment) (s : State) : State :=
  { s with
    cabinet := { s.cabinet with compartments := s.cabinet.compartments.set c (f (s.cabinet.compartments.get c)) } }

/-- R94: the bank of a compartment. -/
def bankOf (c : CompartmentId) : Fin 4 := ⟨c.val / 12, by have := c.isLt; omega⟩

/-- R94: the capacity of a class. -/
def capacity : BoxClass → Nat
  | .standard => 4
  | .coin => 2

/-- R106: the pending placement of a compartment. -/
def pendingAt (s : State) (c : CompartmentId) : Nat :=
  match s.station.state with
  | .placing _ _ target _ => if target = c then 1 else 0
  | _ => 0

/-- R96, R97: an occupant list changed: the overfull mark is tested, and the handling attribute is unset where the
list is now empty. -/
def Compartment.withOccupants (list : List Nat) (b : Compartment) : Compartment :=
  { b with occupants := list, overfull := decide (capacity b.cls < list.length),
           handling := if list.isEmpty then none else b.handling }

/-- R95: a custody number joins the tail of a compartment's occupant list. -/
def joinBox (c : CompartmentId) (n : Nat) (s : State) : State :=
  modifyBox c (fun b => b.withOccupants (b.occupants ++ [n])) s

/-- R95: a custody number leaves a compartment's occupant list. -/
def leaveBox (c : CompartmentId) (n : Nat) (s : State) : State :=
  modifyBox c (fun b => b.withOccupants (b.occupants.filter (· != n))) s

/-- The reserve count of a class (R98). -/
def reserveOf (s : State) : BoxClass → Nat
  | .standard => s.cabinet.reserveStandard
  | .coin => s.cabinet.reserveCoin

/-- The compartments of a class in ascending order. -/
def boxesOf (s : State) (k : BoxClass) : List CompartmentId :=
  (List.finRange 48).filter fun c => (s.box c).cls == k

/-- R98: the reserved compartments of a class: its highest-numbered ones, as many as its reserve count. -/
def reservedBoxes (s : State) (k : BoxClass) : List CompartmentId :=
  (boxesOf s k).drop ((boxesOf s k).length - reserveOf s k)

/-- R98: a compartment is reserved under the current derivation. -/
def isReserved (s : State) (c : CompartmentId) : Bool := (reservedBoxes s (s.box c).cls).contains c

/-- R99: the free places of a compartment in service. -/
def freePlacesAt (s : State) (c : CompartmentId) : Nat :=
  if (s.box c).inService then capacity (s.box c).cls - (s.box c).occupants.length - pendingAt s c else 0

/-- R99: the free reserved or the free unreserved places of a class. -/
def freePlaces (s : State) (k : BoxClass) (reserved : Bool) : Nat :=
  let kept := reservedBoxes s k
  (((boxesOf s k).filter fun c => kept.contains c == reserved).map (freePlacesAt s)).sum

/-- R99: the low marks as the map and the threshold give them. -/
def withLowMarks (s : State) : State :=
  { s with
    cabinet :=
      { s.cabinet with
        lowStandard := decide (freePlaces s .standard false ≤ s.store.params.spaceLow)
        lowCoin := decide (freePlaces s .coin false ≤ s.store.params.spaceLow) } }

/-- R99: the low marks tested anew at the end of an event; SPACE_LOW is raised once for each class whose mark goes
from clear to set. -/
def testLowMarks (s : State) : State :=
  let t := withLowMarks s
  raiseTimes .spaceLow
    ((if t.cabinet.lowStandard && !s.cabinet.lowStandard then 1 else 0) +
     (if t.cabinet.lowCoin && !s.cabinet.lowCoin then 1 else 0)) t

/-- R94: the class that takes a bag kind. -/
def classFor : BagKind → BoxClass
  | .note => .standard
  | .coin => .coin

/-- R103: a candidate compartment for a bag kind. -/
def isCandidate (s : State) (k : BagKind) (c : CompartmentId) : Bool :=
  (s.box c).inService && (s.box c).cls == classFor k && (s.box c).door == .locked &&
  decide ((s.box c).occupants.length + pendingAt s c < capacity (s.box c).cls)

/-- R103: the reserved or the unreserved candidates for a bag kind, in ascending order. -/
def candidates (s : State) (k : BagKind) (reserved : Bool) : List CompartmentId :=
  let kept := reservedBoxes s (classFor k)
  (List.finRange 48).filter fun c => isCandidate s k c && (kept.contains c == reserved)

/-- R104: the accepted pass over the unreserved candidates. -/
def acceptedPass (s : State) (k : BagKind) (h : Option Handling) : Option CompartmentId :=
  match (candidates s k false).find? fun c => h.isSome && (s.box c).handling == h with
  | some c => some c
  | none =>
    (candidates s k false).find? fun c =>
      (s.box c).occupants.isEmpty && pendingAt s c == 0 && (s.box c).handling.isNone

/-- R105: the held pass: the lowest reserved candidate, or else the lowest unreserved one. -/
def heldPass (s : State) (k : BagKind) : Option CompartmentId :=
  match (candidates s k true).head? with
  | some c => some c
  | none => (candidates s k false).head?

/-- R104, R105: the compartment for a bag, and whether NO_SPACE is added: the bag was accepted and its accepted
pass failed. -/
def allocate (s : State) (accepted : Bool) (k : BagKind) (h : Option Handling) : Option (CompartmentId × Bool) :=
  if accepted then
    match acceptedPass s k h with
    | some c => some (c, false)
    | none => (heldPass s k).map fun c => (c, true)
  else (heldPass s k).map fun c => (c, false)

/-- R86: the outcome of a record's evaluation is ACCEPTED when its reason set is empty. -/
def Record.accepted (r : Record) : Bool := r.reasons == 0

/-- R106: a place granted: the record becomes ROUTING with its compartment, the station PLACING with the transit
timer started. Absent where the allocation finds no place. -/
def placeGranted (n : Nat) (src : Source) (s : State) : Option State :=
  match s.find n with
  | none => none
  | some r =>
    match allocate s r.accepted (r.kind.getD .note) r.handling with
    | none => none
    | some (c, noSpace) =>
      some <| setStation (.placing n src c (s.store.params.transitTimeout * 1000)) <|
        modifyRecord n (fun r => { r with state := .routing, compartment := some c,
                                          reasons := addReasonIf noSpace .noSpace r.reasons }) s

/-- R107: the allocation repeated for a blocked bag; in any other station state nothing is done. -/
def retry (s : State) : State :=
  match s.station.state with
  | .blocked n src => (placeGranted n src s).getD s
  | _ => s

/-! ## Door machines (chapter 7) -/

/-- The door of a compartment set. -/
def setDoor (c : CompartmentId) (d : Door) (s : State) : State := modifyBox c (fun b => { b with door := d }) s

/-- R139: the operation in flight on a door. -/
def Door.operation : Door → Option DoorOp
  | .locked => none
  | .scanning op _ => some op
  | .unlocked op _ => some op
  | .opened _ op _ => op

/-- The door state reads LOCKED (Table 26). -/
def Door.isLocked : Door → Bool
  | .locked => true
  | .scanning _ _ => true
  | _ => false

/-- The door state reads OPEN (Table 26). -/
def Door.isOpen : Door → Bool
  | .opened _ _ _ => true
  | _ => false

/-- The door state reads UNLOCKED (Table 26). -/
def Door.isUnlocked : Door → Bool
  | .unlocked _ _ => true
  | _ => false

/-- R149: a door operation ends; the issuing link is told, and an unattended scan tells no link. -/
def endDoorOp (op : DoorOp) (code : CompletionCode) (results : List ResultRecord) (s : State) : State :=
  match op with
  | .unattended => s
  | .command l _ _ => endLong l code results s

/-- R140, R141: the door-left-open timer started with the door-left-open time in force. -/
def leftOpenStart (s : State) : Option Nat := some (s.store.params.leftOpenTime * 1000)

/-- The compartments of a bank (R94). -/
def bankBoxes (b : Fin 4) : List CompartmentId := (List.finRange 48).filter fun c => bankOf c == b

/-- R144: an UNLOCKED door whose operation the link issued is relocked and its operation ends ABANDONED; every
other door is left as it is. -/
def relockDoor (l : LinkId) (s : State) (c : CompartmentId) : State :=
  match (s.box c).door with
  | .unlocked (.command k w d) _ =>
    if k = l then endDoorOp (.command k w d) .abandoned [] (setDoor c .locked s) else s
  | _ => s

/-- R131, R144: the door machines of a bank are told that it has left HELD by a link. -/
def relockBank (b : Fin 4) (l : LinkId) (s : State) : State := (bankBoxes b).foldl (relockDoor l) s

/-- The number of doors that are UNLOCKED. -/
def unlockedDoors (s : State) : Nat := s.cabinet.compartments.cells.countP fun b => b.door.isUnlocked

/-- The number of doors that are OPEN. -/
def openDoors (s : State) : Nat := s.cabinet.compartments.cells.countP fun b => b.door.isOpen

/-- R107, R144: doors relocked in an event give one retry of a blocked allocation; the low marks are then tested. -/
def afterRelock (before after : State) : State :=
  if unlockedDoors after < unlockedDoors before then testLowMarks (retry after) else after

/-! ## Claims (chapter 6) -/

/-- The holder state of a resource. -/
def State.holder (s : State) (r : Fin 9) : Holder := s.claims.resources.get r

/-- A holder state set. -/
def setHolder (r : Fin 9) (h : Holder) (s : State) : State :=
  { s with claims := { s.claims with resources := s.claims.resources.set r h } }

/-- The resource of a bank (Table 20). -/
def bankResource (b : Fin 4) : Fin 9 := ⟨b.val, by have := b.isLt; omega⟩

/-- The bank a resource is, if it is one. -/
def asBank (r : Fin 9) : Option (Fin 4) := index 4 r.val

/-- The resource STATION (Table 20). -/
def stationResource : Fin 9 := 4

/-- The resource HATCHn (Table 20). -/
def hatchResource (c : ChuteId) : Fin 9 := ⟨c.val + 5, by have := c.isLt; omega⟩

/-- R131: a resource has left HELD by a link: the door machines of a bank are told, and no other block is. -/
def toldLost (r : Fin 9) (l : LinkId) (s : State) : State :=
  match asBank r with
  | some b => relockBank b l s
  | none => s

/-- R119, R127: a resource becomes RETAINED from whatever holder state it is in. -/
def retainOne (s : State) (r : Fin 9) : State :=
  match s.holder r with
  | .held l _ => toldLost r l (setHolder r .retained s)
  | _ => setHolder r .retained s

/-- Several resources retained in one event, with the retry their relocked doors give. -/
def retainAll (rs : List (Fin 9)) (s : State) : State := afterRelock s (rs.foldl retainOne s)

/-- R128: the resource is HELD with the link as holder. -/
def holds (s : State) (l : LinkId) (r : Fin 9) : Bool :=
  match s.holder r with
  | .held h _ => h == l
  | _ => false

/-- R128: the access test of OPEN and HAND OUT for a bank: its refusal, if it refuses. -/
def bankRefusal (s : State) (l : LinkId) (c : CompartmentId) : Option CompletionCode :=
  if s.claims.safe = .locked then some .safeLocked
  else if holds s l (bankResource (bankOf c)) then none
  else some .notClaimed

/-- R132: the claims summary as the claims block stands. -/
def claimsSummary (s : State) : ResultRecord := .claims s.claims s.store.params.cosignWindow

end Sys2Proof.Machine
end

