-- ==== Sys2Proof/Machine/Encode.lean ====
section
/-! DEFINITION. Bytes on a link: the custody record (R190, Table 33), the result records (R191, Table 35a), the
check (R187) and the frames the part sends (R188, Table 31). Encoding details that R191 leaves open are named in
log entries 8, 11, 21, 26 and 27. -/

namespace Sys2Proof.Machine

/-- A number in `n` bytes, least significant byte first (R188). -/
def bytesOf : Nat → Nat → List Byte
  | 0, _ => []
  | n + 1, v => BitVec.ofNat 8 v :: bytesOf n (v / 256)

/-- A signed number in four bytes, two's complement (R191). -/
def signedBytes (v : Int) : List Byte := bytesOf 4 (BitVec.ofInt 32 v).toNat

/-- A named value: its place in the manual's list, counting from 1 (R191). -/
def placeByte {α : Type} [DecidableEq α] (values : List α) (v : α) : List Byte := bytesOf 1 (values.idxOf v + 1)

/-- An optional field: one byte, 1 if present and 0 if absent, then the field when present (R191). -/
def optBytes {α : Type} (f : α → List Byte) : Option α → List Byte
  | none => bytesOf 1 0
  | some v => bytesOf 1 1 ++ f v

/-- A list: a one-byte count and its members (R191). -/
def listBytes {α : Type} (f : α → List Byte) (l : List α) : List Byte := bytesOf 1 l.length ++ l.flatMap f

/-- A mark that is "set or clear": place 1 or 2 (log entry 8). -/
def markByte (set : Bool) : List Byte := bytesOf 1 (if set then 1 else 2)

/-- A field that says whether something holds: 1 or 0 (log entry 8). -/
def whether (b : Bool) : List Byte := bytesOf 1 (if b then 1 else 0)

/-- A set given by the truth of each member in the manual's order: bit k for the member at place k + 1 (R191). -/
def setValue : List Bool → Nat
  | [] => 0
  | b :: bs => (if b then 1 else 0) + 2 * setValue bs

/-! ## The custody record -/

/-- The code of a record state (Table 34). -/
def RecordState.code (st : RecordState) : Nat := recordStates.idxOf st

/-- The code of a tamper value (Table 34). -/
def Tamper.code : Tamper → Nat
  | .intact => 1
  | .broken => 2
  | .unread => 3

/-- The code of a bag kind (Table 34). -/
def BagKind.code : BagKind → Nat
  | .note => 1
  | .coin => 2

/-- The code of a handling (Table 34). -/
def Handling.code : Handling → Nat
  | .branchCount => 1
  | .through => 2

/-- The presence word (Table 32). -/
def presenceWord (r : Record) : Nat :=
  setValue
    [r.tag.isSome, r.tamper.isSome, r.weight.isSome, r.advice.isSome, r.kind.isSome, r.handling.isSome,
     r.compartment.isSome, r.count.isSome, (r.count.bind Count.difference).isSome, r.manifest.isSome]

/-- A custody record in its 43 bytes (R190, Table 33); the bytes of an absent field are 0. -/
def recordBytes (r : Record) : List Byte :=
  bytesOf 2 r.number ++ bytesOf 1 r.state.code ++ bytesOf 1 r.depositor.val ++ bytesOf 1 r.source.val ++
  bytesOf 2 r.arrivalDate ++ bytesOf 3 r.arrivalSeconds ++ bytesOf 2 (presenceWord r) ++
  bytesOf 4 (r.tag.getD 0) ++ bytesOf 1 ((r.tamper.map Tamper.code).getD 0) ++ bytesOf 2 (r.weight.getD 0) ++
  bytesOf 2 (r.advice.getD 0) ++ bytesOf 1 ((r.kind.map BagKind.code).getD 0) ++
  bytesOf 1 ((r.handling.map Handling.code).getD 0) ++ bytesOf 2 r.reasons.toNat ++
  bytesOf 1 (setValue (r.marks.cells.map Option.isSome)) ++
  bytesOf 1 (setValue (r.marks.cells.map (· == some .hold))) ++ whether r.detected ++
  bytesOf 1 ((r.compartment.map Fin.val).getD 0) ++ bytesOf 4 ((r.count.map Count.notes).getD 0) ++
  bytesOf 4 ((r.count.map Count.coins).getD 0) ++ signedBytes ((r.count.bind Count.difference).getD 0) ++
  bytesOf 2 (r.manifest.getD 0)

/-! ## The other result records -/

/-- The code of a completion code (Table 36). -/
def CompletionCode.code : CompletionCode → Nat
  | .ok => 0x00 | .wrongState => 0x01 | .alreadyCounted => 0x02 | .notFound => 0x03 | .notClaimed => 0x04
  | .retained => 0x05 | .notPending => 0x06 | .isProtected => 0x07 | .busy => 0x08 | .full => 0x09
  | .duplicate => 0x0A | .outOfRange => 0x0B | .safeLocked => 0x0C | .notOpened => 0x0D | .abandoned => 0x0E
  | .incomplete => 0x0F | .clockInvalid => 0x10 | .storeInvalid => 0x11

/-- The code of a refusal code (Table 37). -/
def RefusalCode.code : RefusalCode → Nat
  | .executing => 0x01 | .resultWaiting => 0x02 | .unknown => 0x03 | .notForRole => 0x04 | .malformed => 0x05
  | .noResult => 0x06

/-- The code of a phase in a REFUSAL frame (R188). -/
def Phase.code : Phase → Nat
  | .ready => 0
  | .executing => 1
  | .result => 2

/-- An advice entry (Table 10). -/
def adviceBytes (a : Advice) : List Byte :=
  bytesOf 2 a.index ++ bytesOf 4 a.tag ++ bytesOf 1 a.depositor.val ++ bytesOf 2 a.date ++ bytesOf 4 a.notes ++
  bytesOf 4 a.coins ++ optBytes (bytesOf 2) a.weight ++ placeByte bagKinds a.kind ++
  placeByte handlings a.handling ++ bytesOf 1 (if a.matched.isSome then 2 else 1) ++
  optBytes (bytesOf 2) a.matched

/-- A depositor entry with its index (R44, Table 11). -/
def depositorBytes (i : DepositorId) (d : Depositor) : List Byte :=
  bytesOf 1 i.val ++ bytesOf 5 d.credential ++ placeByte depositorStates d.state ++
  bytesOf 1 d.permissions.toNat ++ bytesOf 1 d.allowance ++ bytesOf 1 d.remaining ++ bytesOf 1 d.arrivals ++
  placeByte bagKinds d.kind ++ bytesOf 4 d.declared ++ bytesOf 4 d.counted ++ bytesOf 1 d.saturation ++
  bytesOf 2 d.discrepancies

/-- Whole seconds of a timer, a part of a second counting as one (log entry 5). -/
def wholeSeconds (ms : Nat) : Nat := (ms + 999) / 1000

/-- The place of a chute state in Table 12. -/
def ChuteState.place : ChuteState → Nat
  | .idle => 1
  | .session _ _ => 2
  | .drum _ _ _ => 3
  | .fault => 4

/-- The session depositor, present in SESSION and DRUM (Table 12). -/
def ChuteState.depositor : ChuteState → Option DepositorId
  | .session d _ => some d
  | .drum d _ _ => some d
  | _ => none

/-- The end pending mark (Table 12). -/
def ChuteState.endPending : ChuteState → Bool
  | .drum _ _ p => p
  | _ => false

/-- The time remaining on the idle timer or the drum window (R64). -/
def ChuteState.timer : ChuteState → Option Nat
  | .session _ ms => some ms
  | .drum _ ms _ => some ms
  | _ => none

/-- The place of a panel indication in Table 14. -/
def indications : List Indication :=
  [.ready, .closed, .unknown, .suspended, .notPermitted, .limit, .busy, .sessionOpen, .turning, .wait, .full,
   .received, .receivedLast, .noBag, .ended, .fault]

/-- A chute (R64). The closing conditions that hold are one byte, a set with bit k for the condition at place k + 1 in
R47 (DESIGN CHOICE, log entry 8). -/
def chuteBytes (c : ChuteCopy) : List Byte :=
  bytesOf 1 c.number.val ++ bytesOf 1 c.chute.state.place ++
  optBytes (fun d : DepositorId => bytesOf 1 d.val) c.chute.state.depositor ++ markByte c.chute.state.endPending ++
  optBytes (fun ms => bytesOf 1 (wholeSeconds ms)) c.chute.state.timer ++
  bytesOf 1 (if c.chute.masked then 1 else 2) ++ bytesOf 1 (if c.intakeClosed then 2 else 1) ++
  whether c.isClosed ++ bytesOf 1 c.conditions.toNat ++ placeByte indications c.panel ++
  listBytes (bytesOf 2) c.chute.queue

/-- The place of a station state in Table 15. -/
def StationState.place : StationState → Nat
  | .idle => 1
  | .loading _ _ _ => 2
  | .measuring _ _ _ => 3
  | .placing _ _ _ _ => 4
  | .blocked _ _ => 5
  | .fault => 6

/-- The station's current record with its source (Table 15). -/
def StationState.current : StationState → Option (Nat × Source)
  | .idle => none
  | .loading n src _ => some (n, src)
  | .measuring n src _ => some (n, src)
  | .placing n src _ _ => some (n, src)
  | .blocked n src => some (n, src)
  | .fault => none

/-- The measuring fields, present in MEASURING (Table 15). -/
def StationState.fields : StationState → Option Measuring
  | .measuring _ _ m => some m
  | _ => none

/-- The time remaining on the load timer or the settle timer, in ms (R91). -/
def StationState.timer : StationState → Option Nat
  | .loading _ _ ms => some ms
  | .measuring _ _ m => (match m.settle with | .running ms => some ms | .latched _ => none)
  | _ => none

/-- The latched weight (Table 15). -/
def Measuring.weight (m : Measuring) : Option Nat :=
  match m.settle with
  | .running _ => none
  | .latched w => some w

/-- The read result once the reads are done (Table 15). -/
def Measuring.result (m : Measuring) : Option ReadResult :=
  match m.reads with
  | .attempt _ => none
  | .done r => some r

/-- The place of a source in Table 15. -/
def sourceByte : Source → List Byte
  | .service => bytesOf 1 1
  | .throat c => bytesOf 1 (c.val + 2)

/-- A read result: form 1 a tag with its tamper state, form 2 FAILED (log entry 8). -/
def readBytes : ReadResult → List Byte
  | .tag t broken => bytesOf 1 1 ++ bytesOf 4 t ++ bytesOf 1 (if broken then 2 else 1)
  | .failed => bytesOf 1 2

/-- The station (R91). -/
def stationBytes (s : Station) (p : PriorityMode) : List Byte :=
  bytesOf 1 s.state.place ++ optBytes (fun x : Nat × Source => bytesOf 2 x.1) s.state.current ++
  optBytes (fun x : Nat × Source => sourceByte x.2) s.state.current ++ optBytes (bytesOf 2) s.state.timer ++
  optBytes (fun m : Measuring => bytesOf 1 m.made) s.state.fields ++
  optBytes (bytesOf 2) (s.state.fields.bind Measuring.weight) ++
  optBytes readBytes (s.state.fields.bind Measuring.result) ++ bytesOf 1 s.lastServed.val ++
  placeByte priorityModes p ++ listBytes (bytesOf 2) s.service

/-- A check rule (Table 17). -/
def ruleBytes (n : Fin 8) (r : CheckRule) : List Byte :=
  bytesOf 1 (n.val + 1) ++ placeByte quantities r.quantity ++ placeByte conditions r.condition ++
  signedBytes r.reference ++ placeByte ruleActions r.action

/-- The place of a door state in Table 19. -/
def Door.place : Door → Nat
  | .locked => 1
  | .scanning _ _ => 1
  | .unlocked _ _ => 2
  | .opened _ _ _ => 3

/-- The forced mark (Table 25). -/
def Door.forced : Door → Bool
  | .opened f _ _ => f
  | _ => false

/-- The place of an operation in flight in Table 19; an unattended scan is an INVENTORY (R139). -/
def operationPlace : Option DoorOp → Nat
  | none => 1
  | some .unattended => 4
  | some (.command _ .openDoor _) => 2
  | some (.command _ (.handOut _ _) _) => 3
  | some (.command _ .inventory _) => 4

/-- A compartment (R102, Table 19); of the occupants the count whole and at most the first twelve (R191). An unset
handling attribute is the place 3 (DESIGN CHOICE, log entry 8). -/
def compartmentBytes (c : CompartmentCopy) : List Byte :=
  bytesOf 1 c.number.val ++ bytesOf 1 (bankOf c.number).val ++ placeByte boxClasses c.compartment.cls ++
  bytesOf 1 (capacity c.compartment.cls) ++ bytesOf 1 (if c.compartment.inService then 1 else 2) ++
  bytesOf 1 c.compartment.occupants.length ++ (c.compartment.occupants.take 12).flatMap (bytesOf 2) ++
  bytesOf 1 c.pending ++
  bytesOf 1 (match c.compartment.handling with | some .branchCount => 1 | some .through => 2 | none => 3) ++
  markByte c.compartment.overfull ++ bytesOf 1 c.compartment.door.place ++ markByte c.compartment.door.forced ++
  bytesOf 1 (operationPlace c.compartment.door.operation) ++ listBytes (bytesOf 4) c.compartment.foreign ++
  bytesOf 1 c.compartment.furtherForeign ++ whether c.reserved

/-- The compartment summary (R102). The reserved compartments are two lists, STANDARD and then COIN, each in ascending
order, after both reserve counts; the free places are the unreserved and then the reserved ones of STANDARD, and then
those of COIN (DESIGN CHOICE, log entry 26). -/
def cabinetBytes (c : CabinetSummary) : List Byte :=
  bytesOf 1 c.standardCount ++ bytesOf 1 c.coinCount ++ bytesOf 1 c.reserveStandard ++ bytesOf 1 c.reserveCoin ++
  listBytes (fun x : CompartmentId => bytesOf 1 x.val) c.reservedStandard ++
  listBytes (fun x : CompartmentId => bytesOf 1 x.val) c.reservedCoin ++ bytesOf 1 c.freeStandard ++
  bytesOf 1 c.freeReservedStandard ++ bytesOf 1 c.freeCoin ++ bytesOf 1 c.freeReservedCoin ++
  markByte c.lowStandard ++ markByte c.lowCoin ++ bytesOf 1 c.spaceLow

/-- A holder state of the claims summary (R132). -/
def holderBytes : Holder → List Byte
  | .retained => bytesOf 1 1 ++ bytesOf 1 0 ++ bytesOf 1 0 ++ bytesOf 1 0
  | .free => bytesOf 1 2 ++ bytesOf 1 0 ++ bytesOf 1 0 ++ bytesOf 1 0
  | .cosignWait l ms =>
    bytesOf 1 3 ++ bytesOf 1 1 ++ bytesOf 1 l.val ++ bytesOf 1 0 ++ bytesOf 1 1 ++ bytesOf 1 (wholeSeconds ms)
  | .held l k =>
    bytesOf 1 4 ++ bytesOf 1 1 ++ bytesOf 1 l.val ++ optBytes (fun x : LinkId => bytesOf 1 x.val) k ++ bytesOf 1 0

/-- The claims summary (R132); the nine resources stand without a count (DESIGN CHOICE, log entry 8). -/
def claimsBytes (c : Claims) (window : Nat) : List Byte :=
  placeByte safeStates c.safe ++ bytesOf 1 window ++ c.resources.cells.flatMap holderBytes

/-- A protection window (Table 23). The ten records of SET WINDOW come in a fixed order (R138), and none carries its
window kind (DESIGN CHOICE, log entry 8). -/
def protectionBytes (n : Fin 4) (w : ProtectionWindow) : List Byte :=
  bytesOf 1 n.val ++ bytesOf 1 (if w.enabled then 1 else 2) ++ bytesOf 1 w.base.toNat ++
  bytesOf 1 w.ignore.toNat ++ bytesOf 1 w.links.toNat ++ bytesOf 1 w.operations.toNat

/-- A detection window (Table 24), without its window kind (DESIGN CHOICE, log entry 8). -/
def detectionBytes (n : Fin 6) (w : DetectionWindow) : List Byte :=
  bytesOf 1 n.val ++ bytesOf 1 (if w.enabled then 1 else 2) ++ bytesOf 1 w.lower ++ bytesOf 1 w.upper ++
  bytesOf 3 w.timeLower ++ bytesOf 3 w.timeUpper ++ bytesOf 1 w.links.toNat ++ bytesOf 1 w.operations.toNat

/-- The classifications in the order R155 names them. -/
def classifications : List Classification :=
  [.taken, .takenUnverified, .left, .missing, .elsewhere, .recovered, .foreign]

/-- The verdicts (R158). -/
def verdicts : List Verdict := [.agreed, .discrepant, .unadvised]

/-- A named record state: its place in Table 7. -/
def stateByte (st : RecordState) : List Byte := placeByte recordStates st

/-- A manifest entry (R171), one form within the summary and as a record of its own after a refused CLOSE or ABANDON:
the custody number, the state, and the compartment as an optional field (DESIGN CHOICE, log entry 27). -/
def entryBytes (e : ManifestEntry) : List Byte :=
  bytesOf 2 e.number ++ stateByte e.state ++ optBytes (fun c : CompartmentId => bytesOf 1 c.val) e.compartment

/-- A date with a time of day. -/
def stampBytes (p : Nat × Nat) : List Byte := bytesOf 2 p.1 ++ bytesOf 3 p.2

/-- The clock's validity and its invalid cause (R175, Table 28). -/
def validityBytes : ClockValidity → List Byte
  | .valid => bytesOf 1 1 ++ bytesOf 1 0
  | .invalid .storeLost => bytesOf 1 2 ++ bytesOf 1 1 ++ bytesOf 1 1
  | .invalid .initialised => bytesOf 1 2 ++ bytesOf 1 1 ++ bytesOf 1 2
  | .invalid .cutoffMissed => bytesOf 1 2 ++ bytesOf 1 1 ++ bytesOf 1 3

/-- A date change (Table 28). -/
def changeBytes (d : DateChange) : List Byte :=
  bytesOf 2 d.date ++ bytesOf 3 d.seconds ++ bytesOf 1 (match d.cause with | .cutoff => 1 | .setClock => 2)

/-- The clock summary (R179). -/
def clockBytes (c : Clock) (cutoff : Nat) : List Byte :=
  bytesOf 3 c.seconds ++ bytesOf 2 c.date ++ validityBytes c.validity ++ bytesOf 3 cutoff ++
  optBytes changeBytes c.lastChange

/-- The eight per-date counts in the order of R21. -/
def countsBytes (c : DateCounts) : List Byte :=
  bytesOf 2 c.arrivals ++ bytesOf 2 c.accepted ++ bytesOf 2 c.held ++ bytesOf 2 c.handedToTeller ++
  bytesOf 2 c.counted ++ bytesOf 2 c.dispatched ++ bytesOf 2 c.discrepancies ++ bytesOf 2 c.refusedCredentials

/-- The seven line counters in the order of Table 38. -/
def lineCounterBytes (c : LineCounters) : List Byte :=
  bytesOf 4 c.framesReceived ++ bytesOf 4 c.framesSent ++ bytesOf 4 c.checkErrors ++ bytesOf 4 c.parityErrors ++
  bytesOf 4 c.framingErrors ++ bytesOf 4 c.overrunErrors ++ bytesOf 4 c.refusals

/-- The content of a result record. A hand-out refusal carries its code as Table 36 has it (DESIGN CHOICE, log entry
11). In a manifest summary one byte says whether a manifest is open and serves for the presence of its number, the
opened-at time alone having a presence byte of its own, and the number of entries that R171 names stands for the count
that R191 gives a list (DESIGN CHOICE, log entry 27). The last three fields of an advice outcome are optional each for
itself; the date of a last-date set, the counts of notices and the parameters stand bare (DESIGN CHOICE, log entry 8).
-/
def ResultRecord.content : ResultRecord → List Byte
  | .custody r => recordBytes r
  | .advice a => adviceBytes a
  | .adviceSummary a =>
    bytesOf 2 a.entries ++ bytesOf 2 a.openCount ++ bytesOf 2 a.matchedCount ++ bytesOf 2 a.emptySlots ++
    bytesOf 2 a.expiryDate ++ bytesOf 2 a.expiryCount
  | .adviceOutcome p t o e =>
    bytesOf 1 p ++ bytesOf 4 t ++ bytesOf 1 o.code ++ optBytes (fun x => bytesOf 2 x.1) e ++
    optBytes (fun x : Nat × Option Nat => bytesOf 1 (if x.2.isSome then 2 else 1)) e ++
    optBytes (bytesOf 2) (e.bind Prod.snd)
  | .depositor i d => depositorBytes i d
  | .chute c => chuteBytes c
  | .station s p => stationBytes s p
  | .rule n r => ruleBytes n r
  | .compartment c => compartmentBytes c
  | .compartmentSummary c => cabinetBytes c
  | .claims c w => claimsBytes c w
  | .protection n w => protectionBytes n w
  | .detection n w => detectionBytes n w
  | .classified c n r => placeByte classifications c ++ bytesOf 2 n ++ (r.map recordBytes).getD []
  | .foreignTag t => placeByte classifications .foreign ++ bytesOf 4 t
  | .counted r v t => recordBytes r ++ placeByte verdicts v ++ bytesOf 3 t
  | .manifestSummary k m o es =>
    bytesOf 2 k ++ whether m.isSome ++
    (match m with | some (n, at') => bytesOf 2 n ++ optBytes stampBytes at' | none => []) ++
    bytesOf 1 es.length ++ bytesOf 1 o ++ es.flatMap entryBytes
  | .manifestEntry e => entryBytes e
  | .clock c k => clockBytes c k
  | .lineCounters n c => lineCounterBytes c ++ bytesOf 1 n.val
  | .dateCounts c d => countsBytes c ++ (d.map (bytesOf 2)).getD []
  | .notices cells =>
    bytesOf 3 (setValue (cells.cells.map NoticeCell.flag)) ++ cells.cells.flatMap fun c => bytesOf 1 c.count
  | .handOutRefusal n c => bytesOf 2 n ++ bytesOf 1 c.code
  | .parameters vs => vs.flatMap fun p => bytesOf (parameterBytes p.1) p.2

/-- The kind byte of a result record (Table 35a); that of the parameters record is a free value (log entry 1). -/
def ResultRecord.kindByte : ResultRecord → Byte
  | .custody _ => 1
  | .advice _ => 2
  | .adviceSummary _ => 3
  | .adviceOutcome _ _ _ _ => 4
  | .depositor _ _ => 5
  | .chute _ => 6
  | .station _ _ => 7
  | .rule _ _ => 8
  | .compartment _ => 9
  | .compartmentSummary _ => 10
  | .claims _ _ => 11
  | .protection _ _ => 12
  | .detection _ _ => 12
  | .classified _ _ _ => 13
  | .foreignTag _ => 13
  | .counted _ _ _ => 14
  | .manifestSummary _ _ _ _ => 15
  | .manifestEntry _ => 16
  | .clock _ _ => 17
  | .lineCounters _ _ => 18
  | .dateCounts _ _ => 19
  | .notices _ => 20
  | .handOutRefusal _ _ => 21
  | .parameters _ => Config.parameterRecordKind

/-- A result record in a RESULT frame: kind, length, content (R191). -/
def ResultRecord.bytes (r : ResultRecord) : List Byte := r.kindByte :: bytesOf 1 r.content.length ++ r.content

/-! ## Frames -/

/-- One bit into the check register: the polynomial x^16 + x^12 + x^5 + 1, most significant bit first (R187). -/
def crcBit (crc : BitVec 16) : BitVec 16 :=
  if crc.getLsbD 15 then (crc <<< 1) ^^^ 0x1021#16 else crc <<< 1

/-- One byte into the check register (R187). -/
def crcByte (crc : BitVec 16) (b : Byte) : BitVec 16 :=
  let c := crc ^^^ (b.zeroExtend 16 <<< 8)
  crcBit (crcBit (crcBit (crcBit (crcBit (crcBit (crcBit (crcBit c)))))))

/-- The check over kind, tag, code and body: it starts at 0xFFFF and has no final inversion (R187). -/
def crc16 (bs : List Byte) : BitVec 16 := bs.foldl crcByte 0xFFFF#16

/-- The kind byte of a frame of the part (Table 31). -/
def Frame.kindByte : Frame → Byte
  | .done _ _ _ _ => 0x02
  | .result _ _ _ => 0x03
  | .refusal _ _ _ _ => 0x04
  | .report _ _ => 0x05

/-- The tag byte of a frame (R188). -/
def Frame.tagByte : Frame → Byte
  | .done t _ _ _ => BitVec.ofNat 8 t
  | .result t _ _ => BitVec.ofNat 8 t
  | .refusal t _ _ _ => BitVec.ofNat 8 t
  | .report _ _ => 0

/-- The code byte of a frame (R188). -/
def Frame.codeByte : Frame → Byte
  | .done _ c _ _ => BitVec.ofNat 8 c.code
  | .result _ rs final => BitVec.ofNat 8 (rs.length + if final then 0x80 else 0)
  | .refusal _ c _ _ => BitVec.ofNat 8 c.code
  | .report _ _ => 0

/-- The contents of a frame's body (R188, R205). -/
def Frame.body : Frame → List Byte
  | .done _ _ count _ => bytesOf 2 count
  | .result _ rs _ => rs.flatMap ResultRecord.bytes
  | .refusal _ _ refused phase => bytesOf 1 refused ++ bytesOf 1 phase.code
  | .report n items =>
    bytesOf 2 n ++ bytesOf 1 items.length ++
    items.flatMap fun i => bytesOf 1 i.1 ++ bytesOf 1 i.2.length ++ i.2

/-- A body ends with one pad byte of 0 where its contents take an odd number of bytes (R188). -/
def padded (body : List Byte) : List Byte := if body.length % 2 = 1 then body ++ [0#8] else body

/-- A frame as the bytes on the line, its check inverted where it is a forced one (Table 31, R199). -/
def Frame.bytes (f : Frame) (forced : Bool) : List Byte :=
  let body := padded f.body
  let covered := f.kindByte :: f.tagByte :: f.codeByte :: body
  let check := if forced then ~~~(crc16 covered) else crc16 covered
  0xA5#8 :: BitVec.ofNat 8 (body.length / 2) :: covered ++ bytesOf 2 check.toNat

end Sys2Proof.Machine
end

