-- ==== Sys2Proof/Machine/Access.lean ====
section
/-! DEFINITION. Claims and dual control (chapter 6): SAFE STATE, RETAIN, RELINQUISH, CLAIM, COSIGN, YIELD and the
expiry of a cosign window. -/

namespace Sys2Proof.Machine

/-- R132: a claims command ends with the claims summary, OK or refused. -/
def withSummary (code : CompletionCode) (s : State) : Answer := .done code [claimsSummary s] s

/-- The four banks (Table 20). -/
def banks : List (Fin 9) := [0, 1, 2, 3]

/-- The nine resources (Table 20). -/
def allResources : List (Fin 9) := List.finRange 9

/-- The safe state written. -/
def setSafe (v : SafeState) (s : State) : State := { s with claims := { s.claims with safe := v } }

/-- R118, R144: the safe state becomes LOCKED: every bank retained, OPEN_AT_LOCK raised for each OPEN door. -/
def lockSafe (s : State) : State :=
  raiseTimes .openAtLock (openDoors s) (retainAll banks (setSafe .locked s))

/-- R118. -/
def ownSafeState (v : Nat) (s : State) : Answer :=
  match atPlace safeStates v with
  | none => withSummary .outOfRange s
  | some .opened => withSummary .ok (setSafe .opened s)
  | some .locked => withSummary .ok (if s.claims.safe = .locked then s else lockSafe s)

/-- SAFE STATE (R118). -/
def execSafeState (l : LinkId) (tag value : Nat) (s : State) : Host.Outcome State Fault Refusal :=
  .next (takePlain l tag .safeState (ownSafeState value) s)

/-- R119. -/
def ownRetain (resource : Option Nat) (s : State) : Answer :=
  match resource with
  | none => withSummary .ok (retainAll allResources s)
  | some k =>
    match resourceOf k with
    | none => withSummary .outOfRange s
    | some r => withSummary .ok (retainAll [r] s)

/-- RETAIN (R119). -/
def execRetain (l : LinkId) (tag : Nat) (resource : Option Nat) (s : State) : Host.Outcome State Fault Refusal :=
  .next (takePlain l tag .retain (ownRetain resource) s)

/-- R120. -/
def ownRelinquish (resource : Nat) (s : State) : Answer :=
  match resourceOf resource with
  | none => withSummary .outOfRange s
  | some r =>
    if s.holder r ≠ .retained then withSummary .wrongState s
    else if (asBank r).isSome ∧ s.claims.safe = .locked then withSummary .safeLocked s
    else withSummary .ok (setHolder r .free s)

/-- RELINQUISH (R120). -/
def execRelinquish (l : LinkId) (tag resource : Nat) (s : State) : Host.Outcome State Fault Refusal :=
  .next (takePlain l tag .relinquish (ownRelinquish resource) s)

/-- R121: what a claim makes of a FREE resource: COSIGN_WAIT for a bank, HELD for STATION or a hatch. -/
def claimed (s : State) (l : LinkId) (r : Fin 9) : Holder :=
  if (asBank r).isSome then .cosignWait l (s.store.params.cosignWindow * 1000) else .held l none

/-- R121. -/
def ownClaim (l : LinkId) (resource : Nat) (s : State) : Answer :=
  match resourceOf resource with
  | none => withSummary .outOfRange s
  | some r =>
    match s.holder r with
    | .retained => withSummary .retained s
    | .free => withSummary .ok (setHolder r (claimed s l r) s)
    | .cosignWait h _ => withSummary (if h = l then .wrongState else .busy) s
    | .held h _ => withSummary (if h = l then .wrongState else .busy) s

/-- CLAIM (R121). -/
def execClaim (l : LinkId) (tag resource : Nat) (s : State) : Host.Outcome State Fault Refusal :=
  .next (takePlain l tag .claim (ownClaim l resource) s)

/-- R122. -/
def ownCosign (l : LinkId) (resource : Nat) (s : State) : Answer :=
  match resourceOf resource with
  | none => withSummary .outOfRange s
  | some r =>
    match s.holder r with
    | .cosignWait h _ =>
      if h = l then withSummary .wrongState s else withSummary .ok (setHolder r (.held h (some l)) s)
    | _ => withSummary .notPending s

/-- COSIGN (R122). -/
def execCosign (l : LinkId) (tag resource : Nat) (s : State) : Host.Outcome State Fault Refusal :=
  .next (takePlain l tag .cosign (ownCosign l resource) s)

/-- R123, R131: a HELD resource yielded: FREE, the door machines of a bank told. -/
def yieldHeld (l : LinkId) (r : Fin 9) (s : State) : State := afterRelock s (toldLost r l (setHolder r .free s))

/-- R123. -/
def ownYield (l : LinkId) (resource : Nat) (s : State) : Answer :=
  match resourceOf resource with
  | none => withSummary .outOfRange s
  | some r =>
    match s.holder r with
    | .held h _ => if h = l then withSummary .ok (yieldHeld l r s) else withSummary .notClaimed s
    | .cosignWait h _ => if h = l then withSummary .ok (setHolder r .free s) else withSummary .notClaimed s
    | _ => withSummary .notClaimed s

/-- YIELD (R123). -/
def execYieldResource (l : LinkId) (tag resource : Nat) (s : State) : Host.Outcome State Fault Refusal :=
  .next (takePlain l tag .yieldResource (ownYield l resource) s)

/-- R124: a bank's cosign window reaches 0 while the bank is COSIGN_WAIT. -/
def lapse (b : Fin 4) (s : State) : State :=
  match s.holder (bankResource b) with
  | .cosignWait _ _ => raise .cosignLapsed (setHolder (bankResource b) .free s)
  | _ => s

/-- COSIGN_WINDOW_EXPIRY (R124). -/
def execCosignWindowExpiry (bank : Fin 4) (s : State) : Host.Outcome State Fault Refusal := .next (lapse bank s)

end Sys2Proof.Machine
end

