-- ==== Sys2Proof/Machine/Reports.lean ====
section
/-! DEFINITION. Cadence reports (chapter 11): the report sources, a report that falls due, REPORT PROGRAM, REPORT
STOP and REPORT_TIMER_EXPIRY. -/

namespace Sys2Proof.Machine

/-- Table 40: the record state that a source counts. -/
def sourceState (source : Nat) : Option RecordState :=
  match source with
  | 6 => some .waiting | 7 => some .checking | 8 => some .held | 9 => some .stored | 10 => some .outTeller
  | 11 => some .missing | 17 => some .routing | 18 => some .outCarrier | 19 => some .counted
  | 20 => some .dispatched | 21 => some .stranded | 22 => some .void | _ => none

/-- Table 40: the contents of a source as it stands, encoded as R191 sets out; the four chute states and the eight
counts stand without a count (DESIGN CHOICE, log entry 8). -/
def sourceBytes (s : State) (source : Nat) : List Byte :=
  match sourceState source with
  | some st => bytesOf 2 (stateCount s st)
  | none =>
    match source with
    | 1 => bytesOf 2 (freeRecords s)
    | 2 => bytesOf 1 (freePlaces s .standard false)
    | 3 => bytesOf 1 (freePlaces s .standard true)
    | 4 => bytesOf 1 (freePlaces s .coin false)
    | 5 => bytesOf 1 (freePlaces s .coin true)
    | 12 =>
      bytesOf 1 s.station.state.place ++ optBytes (fun x : Nat × Source => bytesOf 2 x.1) s.station.state.current
    | 13 => s.chutes.cells.flatMap fun c => bytesOf 1 c.state.place
    | 14 => bytesOf 2 (openAdvices s)
    | 15 => countsBytes s.register.current
    | 16 => bytesOf 3 s.clock.seconds ++ bytesOf 2 s.clock.date ++ validityBytes s.clock.validity
    | _ => []

/-- R205: the report number after a report; from 65,535 it gives 0. -/
def nextReport (n : Nat) : Nat := (n + 1) % 65536

/-- R205: a report falls due on a link's program: queued on a PRESENT link, and nothing on an ABSENT one. -/
def reportDue (l : LinkId) (s : State) : State :=
  match (s.link l).program with
  | none => s
  | some p =>
    if (s.link l).present then
      modifyLink l
        (fun k =>
          { k with
            program := some { p with produced := nextReport p.produced }
            queue := replaceOrAppend Frame.isReport
              (.report (nextReport p.produced) (p.sources.map fun n => (n, sourceBytes s n))) k.queue }) s
    else s

/-- The cadence of a link's program changed. -/
def setCadence (l : LinkId) (c : Cadence) (s : State) : State :=
  modifyLink l (fun k => { k with program := k.program.map fun p => { p with cadence := c } }) s

/-- R205: a bag stored counts on a link's BAGS program, and at n the report falls due. -/
def countBag (s : State) (l : LinkId) : State :=
  match (s.link l).program.map Program.cadence with
  | some (.bags n count) =>
    if count + 1 < n then setCadence l (.bags n (count + 1)) s else reportDue l (setCadence l (.bags n 0) s)
  | _ => s

/-- R205: a bag arrived at its expected compartment and became STORED. -/
def bagStored (s : State) : State := (List.finRange 4).foldl countBag s

/-- R205: the report timer expires: it restarts at n and the report falls due. -/
def expireReport (l : LinkId) (s : State) : State :=
  match (s.link l).program.map Program.cadence with
  | some (.seconds n _) => reportDue l (setCadence l (.seconds n (n * 1000)) s)
  | _ => s

/-- REPORT_TIMER_EXPIRY (R205). -/
def execReportTimerExpiry (link : LinkId) (s : State) : Host.Outcome State Fault Refusal :=
  .next (expireReport link s)

/-- R204: a cadence started afresh, absent for a mode or an n outside its range. -/
def cadenceOf (mode n : Nat) : Option Cadence :=
  if mode = 1 ∧ 1 ≤ n ∧ n ≤ 3600 then some (.seconds n (n * 1000))
  else if mode = 2 ∧ 1 ≤ n ∧ n ≤ 255 then some (.bags n 0)
  else none

/-- R204. -/
def ownReportProgram (l : LinkId) (mode n : Nat) (sources : List Nat) (s : State) : Answer :=
  match cadenceOf mode n with
  | none => declined .outOfRange s
  | some c =>
    if !sourcesInRange sources then declined .outOfRange s
    else
      .done .ok []
        (modifyLink l (fun k => { k with program := some { cadence := c, sources := sources, produced := 0 } }) s)

/-- REPORT PROGRAM (R204): a list of 1 to 12 sources, any other number is MALFORMED. -/
def execReportProgram (l : LinkId) (tag mode n : Nat) (sources : List Nat) (s : State) :
    Host.Outcome State Fault Refusal :=
  .next <| takeCommand l tag .reportProgram (Command.reportProgram.allowed l)
    (1 ≤ sources.length && sources.length ≤ 12) (ownReportProgram l mode n sources) s

/-- R204. -/
def ownReportStop (l : LinkId) (s : State) : Answer :=
  .done .ok [] (modifyLink l (fun k => { k with program := none }) s)

/-- REPORT STOP (R204). -/
def execReportStop (l : LinkId) (tag : Nat) (s : State) : Host.Outcome State Fault Refusal :=
  .next (takePlain l tag .reportStop (ownReportStop l) s)

end Sys2Proof.Machine
end

