-- ==== Sys2Proof/Machine/Cabinet.lean ====
section
/-! DEFINITION. Cabinet placement (chapter 5): the end of a transit, foreign entries, and the commands SET
COMPARTMENT, SET RESERVE and READ COMPARTMENT. -/

namespace Sys2Proof.Machine

/-! ## Transit and arrival -/

/-- R150: a scan at the compartment begins its 2 s again when an entry report reaches it. -/
def restartScan (c : CompartmentId) (s : State) : State :=
  match (s.box c).door with
  | .scanning op _ => setDoor c (.scanning op Config.scanMs) s
  | _ => s

/-- R97, R110: a STORED arrival joins the occupant list and sets the handling attribute of an empty compartment. -/
def joinStored (c : CompartmentId) (r : Record) (s : State) : State :=
  modifyBox c
    (fun b =>
      { b.withOccupants (b.occupants ++ [r.number]) with
        handling := if b.occupants.isEmpty then r.handling else b.handling }) s

/-- R21: a STORED arrival counted under accepted. -/
def countAccepted (s : State) : State := countUp (fun k => { k with accepted := satInc 65535 k.accepted }) s

/-- R21: a HELD arrival counted under held. -/
def countHeld (s : State) : State := countUp (fun k => { k with held := satInc 65535 k.held }) s

/-- R88, R110: the transit has ended in an arrival: the station is IDLE, the low marks are tested and the arbiter
grants the next bag. -/
def transitDone (s : State) : State := arbitrate (testLowMarks (setStation .idle s))

/-- R110: an arrival at the expected compartment of a record without reasons. -/
def arriveStored (c : CompartmentId) (r : Record) (s : State) : State :=
  bagStored <| transitDone <| countAccepted <|
    modifyRecord r.number (fun r => { r with state := .stored }) (joinStored c r s)

/-- R110: an arrival at the expected compartment of a record with reasons. -/
def arriveHeld (c : CompartmentId) (r : Record) (s : State) : State :=
  transitDone <| raise .heldBag <| countHeld <|
    modifyRecord r.number (fun r => { r with state := .held }) (joinBox c r.number s)

/-- R111: a misroute into compartment `c`. -/
def misroute (c : CompartmentId) (r : Record) (s : State) : State :=
  transitDone <| raise .heldBag <| countHeld <|
    modifyRecord r.number
      (fun r => { r with state := .held, compartment := some c, reasons := addReason r.reasons .misrouted })
      (joinBox c r.number s)

/-- R113: a foreign entry noted at a compartment. -/
def Compartment.foreignEntry (tag : Option Nat) (b : Compartment) : Compartment :=
  match tag with
  | none => { b with furtherForeign := satInc 255 b.furtherForeign }
  | some t =>
    if b.foreign.contains t then b
    else if b.foreign.length < 4 then { b with foreign := b.foreign ++ [t] }
    else { b with furtherForeign := satInc 255 b.furtherForeign }

/-- R113: an entry report while no record is ROUTING. -/
def foreignEntry (c : CompartmentId) (tag : Option Nat) (s : State) : State :=
  raise .foreign (modifyBox c (Compartment.foreignEntry tag) s)

/-- R109 to R113: an entry report judged by the transit in progress. -/
def judgeEntry (c : CompartmentId) (tag : Option Nat) (s : State) : State :=
  match s.station.state with
  | .placing n _ target _ =>
    match s.find n with
    | none => s
    | some r =>
      if c = target then (if r.reasons = 0 then arriveStored c r s else arriveHeld c r s) else misroute c r s
  | _ => foreignEntry c tag s

/-- ENTRY_REPORT (R109). -/
def execEntryReport (compartment : CompartmentId) (tag : Option Nat) (s : State) :
    Host.Outcome State Fault Refusal :=
  .next (judgeEntry compartment tag (restartScan compartment s))

/-- R112: the transit timer expires while a record is ROUTING. -/
def failTransit (s : State) : State :=
  match s.station.state with
  | .placing n _ _ _ =>
    testLowMarks <| raise .stranded <| raise .stationFault <|
      modifyRecord n Record.stranded (setStation .fault s)
  | _ => s

/-- TRANSIT_TIMEOUT (R112). -/
def execTransitTimeout (s : State) : Host.Outcome State Fault Refusal := .next (failTransit s)

/-! ## SET COMPARTMENT and SET RESERVE -/

/-- R100: the compartment with a class and a service flag written. A class change unsets the handling attribute,
and the overfull mark follows the capacity. -/
def Compartment.configured (k : BoxClass) (service : Bool) (b : Compartment) : Compartment :=
  if b.cls = k then { b with inService := service }
  else { ({ b with cls := k, inService := service }.withOccupants b.occupants) with handling := none }

/-- R98, R100: a class change would leave a class with fewer compartments than its reserve count. -/
def classTooSmall (s : State) (old : BoxClass) : Bool := decide ((boxesOf s old).length - 1 < reserveOf s old)

/-- R100: the refusals that the state gives, in their order. -/
def compartmentRefusal (s : State) (c : CompartmentId) (k : BoxClass) (service : Bool) : Option CompletionCode :=
  let b := s.box c
  if b.cls ≠ k ∧ classTooSmall s b.cls then some .outOfRange
  else if b.cls ≠ k ∧ b.occupants ≠ [] then some .wrongState
  else if b.cls ≠ k ∧ (pendingAt s c ≠ 0 ∨ b.door.operation.isSome) then some .busy
  else if b.inService ∧ !service ∧ pendingAt s c ≠ 0 then some .busy
  else none

/-- R100, R107: the layout changed, with the retry that a class change or a return to service gives. -/
def configureBox (c : CompartmentId) (k : BoxClass) (service : Bool) (s : State) : State :=
  let t := modifyBox c (Compartment.configured k service) s
  testLowMarks (if (s.box c).cls ≠ k ∨ (!(s.box c).inService ∧ service) then retry t else t)

/-- R100. -/
def ownSetCompartment (compartment cls service : Nat) (s : State) : Answer :=
  match index 48 compartment, atPlace boxClasses cls, atPlace [true, false] service with
  | some c, some k, some v =>
    if !s.store.valid then declined .storeInvalid s
    else
      match compartmentRefusal s c k v with
      | some code => declined code s
      | none => .done .ok [] (configureBox c k v s)
  | _, _, _ => declined .outOfRange s

/-- SET COMPARTMENT (R100). -/
def execSetCompartment (l : LinkId) (tag compartment cls service : Nat) (s : State) :
    Host.Outcome State Fault Refusal :=
  .next (takePlain l tag .setCompartment (ownSetCompartment compartment cls service) s)

/-- R98: the greatest reserve count of a class. -/
def maxReserve : BoxClass → Nat
  | .standard => Config.maxStandardReserve
  | .coin => Config.maxCoinReserve

/-- The cabinet with the reserve count of a class written. -/
def withReserve (k : BoxClass) (n : Nat) (s : State) : State :=
  match k with
  | .standard => { s with cabinet := { s.cabinet with reserveStandard := n } }
  | .coin => { s with cabinet := { s.cabinet with reserveCoin := n } }

/-- R101, R107: a reserve count written, with the retry that its change gives. -/
def reserve (k : BoxClass) (n : Nat) (s : State) : State :=
  testLowMarks (if reserveOf s k ≠ n then retry (withReserve k n s) else withReserve k n s)

/-- R101. The test of the count against the layout (OUT_OF_RANGE) is made before STORE_INVALID; R101 gives no order of
the two (DESIGN CHOICE, log entry 7). -/
def ownSetReserve (cls n : Nat) (s : State) : Answer :=
  match atPlace boxClasses cls with
  | none => declined .outOfRange s
  | some k =>
    if maxReserve k < n ∨ (boxesOf s k).length < n then declined .outOfRange s
    else if !s.store.valid then declined .storeInvalid s
    else .done .ok [] (reserve k n s)

/-- SET RESERVE (R101). -/
def execSetReserve (l : LinkId) (tag cls count : Nat) (s : State) : Host.Outcome State Fault Refusal :=
  .next (takePlain l tag .setReserve (ownSetReserve cls count) s)

/-! ## READ COMPARTMENT -/

/-- R102: the copy of a compartment. -/
def compartmentCopy (s : State) (c : CompartmentId) : ResultRecord :=
  .compartment { number := c, compartment := s.box c, pending := pendingAt s c, reserved := isReserved s c }

/-- R102: the summary of the cabinet; the order of the reserved compartments is log entry 26. -/
def cabinetSummary (s : State) : CabinetSummary :=
  { standardCount := (boxesOf s .standard).length, coinCount := (boxesOf s .coin).length,
    reserveStandard := s.cabinet.reserveStandard, reserveCoin := s.cabinet.reserveCoin,
    reservedStandard := reservedBoxes s .standard, reservedCoin := reservedBoxes s .coin,
    freeStandard := freePlaces s .standard false, freeReservedStandard := freePlaces s .standard true,
    freeCoin := freePlaces s .coin false, freeReservedCoin := freePlaces s .coin true,
    lowStandard := s.cabinet.lowStandard, lowCoin := s.cabinet.lowCoin, spaceLow := s.store.params.spaceLow }

/-- R102. -/
def ownReadCompartment (compartment : Option Nat) (s : State) : Answer :=
  match compartment with
  | none => .done .ok (.compartmentSummary (cabinetSummary s) :: (List.finRange 48).map (compartmentCopy s)) s
  | some n =>
    match index 48 n with
    | none => declined .outOfRange s
    | some c => .done .ok [compartmentCopy s c] s

/-- READ COMPARTMENT (R102). -/
def execReadCompartment (l : LinkId) (tag : Nat) (compartment : Option Nat) (s : State) :
    Host.Outcome State Fault Refusal :=
  .next (takePlain l tag .readCompartment (ownReadCompartment compartment) s)

end Sys2Proof.Machine
end

