-- ==== Sys2Proof/Machine/Clock.lean ====
section
/-! DEFINITION. The branch clock (chapter 9): the advance, the date roll and SET CLOCK. -/

namespace Sys2Proof.Machine

/-- R176: the seconds of day after an advance; from 86,399 it gives 0. -/
def nextSecond (t : Nat) : Nat := if t < Config.lastSecond then t + 1 else 0

/-- R177: the business date after a roll; from 65,535 it gives 0. -/
def nextDate (d : Nat) : Nat := if d < Config.lastDate then d + 1 else 0

/-- R34, R40: what a date change does to the advice table and the roster. -/
def newDate (date : Nat) (s : State) : State :=
  { s with advices := s.advices.expired date, roster := s.roster.map (Option.map Depositor.renewed) }

/-- R22: the current counters copied into the last-date set under the outgoing date, and cleared. -/
def Register.rolled (outgoing : Nat) (r : Register) : Register :=
  { r with current := .zero, lastCounts := r.current, lastDate := outgoing }

/-- R177: the date roll. -/
def rollDate (s : State) : State :=
  let date := nextDate s.clock.date
  raise .dateRolled
    (newDate date
      { s with
        register := s.register.rolled s.clock.date
        clock := { s.clock with date := date, lastChange := some ⟨date, s.store.params.cutoff, .cutoff⟩ } })

/-- R176, R177: one advance of the timebase. -/
def advance (s : State) : State :=
  let t := nextSecond s.clock.seconds
  let s' := { s with clock := { s.clock with seconds := t } }
  if s.clock.isValid ∧ t = s.store.params.cutoff then rollDate s' else s'

/-- CLOCK_ADVANCE (R176). -/
def execClockAdvance (s : State) : Host.Outcome State Fault Refusal := .next (advance s)

/-- R179: the clock summary. -/
def clockSummary (s : State) : ResultRecord := .clock s.clock s.store.params.cutoff

/-- R179: SET CLOCK ends with the clock summary, OK or refused. -/
def withClock (code : CompletionCode) (s : State) : Answer := .done code [clockSummary s] s

/-- R22, R179: the date change by SET CLOCK. -/
def changeDate (seconds date : Nat) (s : State) : State :=
  raise .dateRolled
    (newDate date
      { s with
        register := { s.register with current := .zero }
        clock := { s.clock with lastChange := some ⟨date, seconds, .setClock⟩ } })

/-- R179: the reading written and the clock VALID, with the date change where the date differs. -/
def setReading (seconds date : Nat) (s : State) : State :=
  let s' := { s with clock := { s.clock with seconds := seconds, date := date, validity := .valid } }
  if date = s.clock.date then s' else changeDate seconds date s'

/-- R179. -/
def ownSetClock (seconds date : Option Nat) (s : State) : Answer :=
  match seconds, date with
  | some t, some d =>
    if Config.lastSecond < t ∨ Config.lastDate < d then withClock .outOfRange s
    else if !s.store.valid then withClock .storeInvalid s
    else withClock .ok (setReading t d s)
  | _, _ => if !s.store.valid then withClock .storeInvalid s else withClock .ok s

/-- SET CLOCK (R179): both fields or neither, one alone is MALFORMED. -/
def execSetClock (l : LinkId) (tag : Nat) (seconds date : Option Nat) (s : State) :
    Host.Outcome State Fault Refusal :=
  .next <| takeCommand l tag .setClock (Command.setClock.allowed l) (seconds.isSome == date.isSome)
    (ownSetClock seconds date) s

end Sys2Proof.Machine
end

