-- ==== Sys2Proof/Machine/Tables.lean ====
section
/-! DEFINITION. The advice table and the depositor roster (chapter 2): LOAD ADVICE, CANCEL ADVICE, READ ADVICE,
SET DEPOSITOR, REMOVE DEPOSITOR, READ DEPOSITOR and the credential lookup. -/

namespace Sys2Proof.Machine

/-! ## LOAD ADVICE -/

/-- R29: the lowest-numbered empty slot. -/
def emptySlot (s : State) : Option Nat :=
  (List.range Config.adviceSlots).find? fun i => s.advices.entries.all fun a => a.index != i

/-- R30: the record a late match is made to: HELD, carrying the tag, with UNADVISED among its reasons. -/
def lateRecord (s : State) (t : Nat) : Option Record :=
  s.register.records.find? fun r => r.state == .held && r.tag == some t && hasReason r.reasons .unadvised

/-- R30: a record matched late to an entry. -/
def Record.lateMatched (r : Record) (a : Advice) : Record :=
  Record.without { r with advice := some a.index, kind := some a.kind, handling := some a.handling } .unadvised

/-- R26, R29, R30: an entry entered at the end of the load order, matched at once to a record where R30 finds one. -/
def enterAdvice (a : Advice) (s : State) : State :=
  match lateRecord s a.tag with
  | none => { s with advices := { s.advices with entries := s.advices.entries ++ [{ a with matched := none }] } }
  | some r =>
    modifyRecord r.number (·.lateMatched a)
      { s with
        advices := { s.advices with entries := s.advices.entries ++ [{ a with matched := some r.number }] } }

/-- R28, R29: one entry of LOAD ADVICE at its position, with its outcome. -/
def loadOne (position : Nat) (a : AdviceArgs) (s : State) : State × ResultRecord :=
  match adviceInRange a, index 128 a.depositor, adviceKind a.kind, atPlace handlings a.handling with
  | true, some d, some k, some h =>
    if (adviceByTag s a.tag).isSome then (s, .adviceOutcome position a.tag .duplicate none)
    else
      match s.roster.get d with
      | none => (s, .adviceOutcome position a.tag .notFound none)
      | some dep =>
        match emptySlot s with
        | none => (s, .adviceOutcome position a.tag .full none)
        | some i =>
          let entry : Advice :=
            { index := i, tag := a.tag, depositor := d, date := a.date, notes := a.notes, coins := a.coins,
              weight := a.weight, kind := k.getD dep.kind, handling := h, matched := none }
          (enterAdvice entry s,
           .adviceOutcome position a.tag .ok (some (i, (lateRecord s a.tag).map Record.number)))
  | _, _, _, _ => (s, .adviceOutcome position a.tag .outOfRange none)

/-- R28: the entries treated one after another from a position. -/
def loadFrom (position : Nat) : List AdviceArgs → State → State × List ResultRecord
  | [], s => (s, [])
  | a :: as, s =>
    let (s, outcome) := loadOne position a s
    let (s, outcomes) := loadFrom (position + 1) as s
    (s, outcome :: outcomes)

/-- R28, R45. -/
def ownLoadAdvice (entries : List AdviceArgs) (s : State) : Answer :=
  if !s.store.valid then declined .storeInvalid s
  else .done .ok (loadFrom 1 entries s).2 (loadFrom 1 entries s).1

/-- LOAD ADVICE (R28): one to eight entries, any other number is MALFORMED. -/
def execLoadAdvice (l : LinkId) (tag : Nat) (entries : List AdviceArgs) (s : State) :
    Host.Outcome State Fault Refusal :=
  .next <| takeCommand l tag .loadAdvice (Command.loadAdvice.allowed l)
    (1 ≤ entries.length && entries.length ≤ 8) (ownLoadAdvice entries) s

/-! ## CANCEL ADVICE and READ ADVICE -/

/-- R32, R45. -/
def ownCancelAdvice (t : Nat) (s : State) : Answer :=
  if !isTag t then declined .outOfRange s
  else if !s.store.valid then declined .storeInvalid s
  else
    match adviceByTag s t with
    | none => declined .notFound s
    | some a =>
      if a.matched.isSome then declined .wrongState s
      else .done .ok [] { s with advices := s.advices.removed a.index }

/-- CANCEL ADVICE (R32). -/
def execCancelAdvice (l : LinkId) (tag bagTag : Nat) (s : State) : Host.Outcome State Fault Refusal :=
  .next (takePlain l tag .cancelAdvice (ownCancelAdvice bagTag) s)

/-- R36: the summary of the advice table. -/
def adviceSummary (s : State) : AdviceSummary :=
  { entries := s.advices.entries.length, openCount := openAdvices s,
    matchedCount := s.advices.entries.length - openAdvices s,
    emptySlots := Config.adviceSlots - s.advices.entries.length, expiryDate := s.advices.expiryDate,
    expiryCount := s.advices.expiryCount }

/-- R36: the entries a selector selects: 1 OPEN, 2 MATCHED, 3 ALL. -/
def selectsAdvice (selector : Nat) (a : Advice) : Bool :=
  selector == 3 || (selector == 1 && a.matched.isNone) || (selector == 2 && a.matched.isSome)

/-- R36, R45. -/
def ownReadAdvice (byTag : Bool) (v : Nat) (s : State) : Answer :=
  if byTag then
    if !isTag v then declined .outOfRange s
    else if !s.store.valid then declined .storeInvalid s
    else
      match adviceByTag s v with
      | none => declined .notFound s
      | some a => .done .ok [.advice a] s
  else if v < 1 ∨ 3 < v then declined .outOfRange s
  else if !s.store.valid then declined .storeInvalid s
  else .done .ok (.adviceSummary (adviceSummary s) :: (s.advices.entries.filter (selectsAdvice v)).map .advice) s

/-- READ ADVICE (R36). -/
def execReadAdvice (l : LinkId) (tag : Nat) (byTag : Bool) (value : Nat) (s : State) :
    Host.Outcome State Fault Refusal :=
  .next (takePlain l tag .readAdvice (ownReadAdvice byTag value) s)

/-! ## The roster -/

/-- The slot whose entry carries a credential number (R37, R38). -/
def slotOfCredential (s : State) (n : Nat) : Option DepositorId :=
  (List.finRange 128).find? fun i =>
    match s.roster.get i with
    | some d => d.credential == n
    | none => false

/-- R42: an entry added to an empty slot. -/
def newDepositor (a : DepositorArgs) (st : DepositorState) (k : BagKind) : Depositor :=
  { credential := a.credential, state := st, permissions := BitVec.ofNat 4 a.permissions, allowance := a.allowance,
    remaining := a.allowance, arrivals := 0, kind := k, declared := 0, counted := 0, saturation := 0,
    discrepancies := 0 }

/-- R42: the remaining count after a change of the allowance. -/
def remainingAfter (old new remaining : Nat) : Nat :=
  if old < new then remaining + (new - old) else if new < old then min remaining new else remaining

/-- R42: an occupied slot's entry replaced. -/
def Depositor.replaced (d : Depositor) (a : DepositorArgs) (st : DepositorState) (k : BagKind) : Depositor :=
  let d' := { d with credential := a.credential, state := st, permissions := BitVec.ofNat 4 a.permissions,
                     allowance := a.allowance, remaining := remainingAfter d.allowance a.allowance d.remaining,
                     kind := k }
  if a.clearTotals = 1 then { d' with declared := 0, counted := 0, saturation := 0, discrepancies := 0 } else d'

/-- R42, R45. -/
def ownSetDepositor (i : Nat) (a : DepositorArgs) (s : State) : Answer :=
  match depositorInRange a, index 128 i, atPlace depositorStates a.state, atPlace bagKinds a.kind with
  | true, some d, some st, some k =>
    if !s.store.valid then declined .storeInvalid s
    else if (slotOfCredential s a.credential).any (· != d) then declined .duplicate s
    else
      let entry :=
        match s.roster.get d with
        | none => newDepositor a st k
        | some old => old.replaced a st k
      .done .ok [] { s with roster := s.roster.set d (some entry) }
  | _, _, _, _ => declined .outOfRange s

/-- SET DEPOSITOR (R42). -/
def execSetDepositor (l : LinkId) (tag index : Nat) (fields : DepositorArgs) (s : State) :
    Host.Outcome State Fault Refusal :=
  .next (takePlain l tag .setDepositor (ownSetDepositor index fields) s)

/-- R43: a chute is in SESSION or DRUM bound to the index. -/
def sessionBound (s : State) (d : DepositorId) : Bool :=
  s.chutes.cells.any fun c => c.state.depositor == some d

/-- R43: a non-terminal record or an advice entry names the index. -/
def depositorNamed (s : State) (d : DepositorId) : Bool :=
  (s.register.records.any fun r => !r.state.isTerminal && r.depositor == d) ||
  s.advices.entries.any fun a => a.depositor == d

/-- R43, R45. -/
def ownRemoveDepositor (i : Nat) (s : State) : Answer :=
  match index 128 i with
  | none => declined .outOfRange s
  | some d =>
    if !s.store.valid then declined .storeInvalid s
    else if (s.roster.get d).isNone then declined .notFound s
    else if sessionBound s d then declined .busy s
    else if depositorNamed s d then declined .wrongState s
    else .done .ok [] { s with roster := s.roster.set d none }

/-- REMOVE DEPOSITOR (R43). -/
def execRemoveDepositor (l : LinkId) (tag index : Nat) (s : State) : Host.Outcome State Fault Refusal :=
  .next (takePlain l tag .removeDepositor (ownRemoveDepositor index) s)

/-- R44: the occupied slots in ascending index order. -/
def occupiedSlots (s : State) : List ResultRecord :=
  (List.finRange 128).filterMap fun i => (s.roster.get i).map (ResultRecord.depositor i)

/-- R44, R45. -/
def ownReadDepositor (i : Option Nat) (s : State) : Answer :=
  match i with
  | none => if !s.store.valid then declined .storeInvalid s else .done .ok (occupiedSlots s) s
  | some i =>
    match index 128 i with
    | none => declined .outOfRange s
    | some d =>
      if !s.store.valid then declined .storeInvalid s
      else
        match s.roster.get d with
        | none => declined .notFound s
        | some e => .done .ok [.depositor d e] s

/-- READ DEPOSITOR (R44). -/
def execReadDepositor (l : LinkId) (tag : Nat) (index : Option Nat) (s : State) : Host.Outcome State Fault Refusal :=
  .next (takePlain l tag .readDepositor (ownReadDepositor index) s)

/-- R38: the answer of the roster to a credential presented at a chute: an index, or the panel code of the first
refusal met. R51 answers a number of 0 or above the range UNKNOWN. -/
def credentialLookup (s : State) (c : ChuteId) (n : Nat) : DepositorId ⊕ Indication :=
  if n = 0 ∨ Config.maxCredential < n then .inr .unknown
  else
    match slotOfCredential s n with
    | none => .inr .unknown
    | some i =>
      match s.roster.get i with
      | none => .inr .unknown
      | some d =>
        if d.state = .suspended then .inr .suspended
        else if !d.permissions.getLsbD c.val then .inr .notPermitted
        else if d.remaining = 0 then .inr .limit
        else .inl i

end Sys2Proof.Machine
end

