-- ==== Sys2Proof/Machine/Intake.lean ====
section
/-! DEFINITION. Chute intake (chapter 3): credentials, sessions, drum turns, throat queues, faults, the panel, and
the commands INTAKE, CLEAR CHUTE and READ CHUTE. -/

namespace Sys2Proof.Machine

/-! ## Credentials and sessions -/

/-- R52: a refused credential counted; while the store is invalid or INITIALISE STORE runs it is not. -/
def countRefused (s : State) : State :=
  if s.store.valid then
    countUp (fun c => { c with refusedCredentials := satInc 65535 c.refusedCredentials }) s
  else s

/-- R51: a credential refused with a code shown on the panel. -/
def refuseCredential (c : ChuteId) (i : Indication) (s : State) : State :=
  countRefused (modifyChute c (Chute.showing i) s)

/-- R51: a credential presented at a chute. -/
def presentCredential (c : ChuteId) (n : Nat) (s : State) : State :=
  match (s.chute c).state with
  | .idle =>
    if chuteClosed s c then refuseCredential c .closed s
    else
      match credentialLookup s c n with
      | .inr i => refuseCredential c i s
      | .inl d => modifyChute c (Chute.shownIn (.session d (s.store.params.sessionIdle * 1000))) s
  | _ => refuseCredential c .busy s

/-- CREDENTIAL_PRESENTED (R51). -/
def execCredentialPresented (chute : ChuteId) (credential : Nat) (s : State) : Host.Outcome State Fault Refusal :=
  .next (presentCredential chute credential s)

/-- R53: END pressed. -/
def pressEnd (c : ChuteId) (s : State) : State :=
  match (s.chute c).state with
  | .session _ _ => modifyChute c (Chute.entered .idle .ended) s
  | .drum d ms _ => modifyChute c (fun k => { k with state := .drum d ms true }) s
  | _ => s

/-- END (R53). -/
def execEndPressed (chute : ChuteId) (s : State) : Host.Outcome State Fault Refusal := .next (pressEnd chute s)

/-- R53: the session idle timer expires; it runs in SESSION only. -/
def expireIdle (c : ChuteId) (s : State) : State :=
  match (s.chute c).state with
  | .session _ _ => modifyChute c (Chute.entered .idle .ended) s
  | _ => s

/-- IDLE_TIMER_EXPIRY (R53). -/
def execIdleTimerExpiry (chute : ChuteId) (s : State) : Host.Outcome State Fault Refusal := .next (expireIdle chute s)

/-- PANEL_HOLD_EXPIRY (R50): the panel returns to the indication of the chute's state. -/
def execPanelHoldExpiry (chute : ChuteId) (s : State) : Host.Outcome State Fault Refusal :=
  .next (modifyChute chute (fun k => { k with hold := none }) s)

/-! ## Drum turns -/

/-- A depositor's remaining count as the roster holds it; 0 for an empty slot. -/
def remainingOf (s : State) (d : DepositorId) : Nat := ((s.roster.get d).map Depositor.remaining).getD 0

/-- R10, R54: the reservation granted and the drum turn started. -/
def startTurn (c : ChuteId) (d : DepositorId) (s : State) : State :=
  modifyChute c (Chute.shownIn (.drum d (s.store.params.drumWindow * 1000) false))
    { s with register := { s.register with reservations := s.register.reservations + 1 } }

/-- R54: DROP pressed. -/
def pressDrop (c : ChuteId) (s : State) : State :=
  match (s.chute c).state with
  | .session d _ =>
    if remainingOf s d = 0 then modifyChute c (Chute.entered .idle .limit) s
    else if Config.throatSize ≤ (s.chute c).queue.length then modifyChute c (Chute.showing .wait) s
    else if freeRecords s = 0 then modifyChute c (Chute.showing .full) s
    else startTurn c d s
  | _ => s

/-- DROP (R54). -/
def execDrop (chute : ChuteId) (s : State) : Host.Outcome State Fault Refusal := .next (pressDrop chute s)

/-- R55: the chute after a turn that ended in an arrival, by the end pending mark and the remaining count. -/
def turnEnded (c : ChuteId) (d : DepositorId) (last : Bool) (atEnd going : Indication) (s : State) : State :=
  if last then modifyChute c (Chute.entered .idle atEnd) s
  else modifyChute c (Chute.entered (.session d (s.store.params.sessionIdle * 1000)) going) s

/-- R55: an arrival: the record, the roster's charge, the throat queue and the chute in one event; the arbiter may
then grant (R68). -/
def arrival (c : ChuteId) (d : DepositorId) (endPending : Bool) (s : State) : State :=
  let n := issuedNumber s.register
  let s := createRecord c d .waiting s
  let s := modifyChute c (fun k => { k with queue := k.queue ++ [n] }) s
  arbitrate (turnEnded c d (endPending || remainingOf s d == 0) .receivedLast .received s)

/-- R55, R59: a throat-entry report. -/
def throatEntry (c : ChuteId) (s : State) : State :=
  match (s.chute c).state with
  | .drum d _ p => arrival c d p s
  | _ => faultChute c false s

/-- THROAT_ENTRY_REPORT (R55, R59, R60). -/
def execThroatEntryReport (chute : ChuteId) (s : State) : Host.Outcome State Fault Refusal :=
  .next (throatEntry chute s)

/-- R57, R60, R61: a jam report; in DRUM the record is created STRANDED and consumes the reservation. -/
def jam (c : ChuteId) (s : State) : State :=
  match (s.chute c).state with
  | .drum d _ _ => raise .stranded (faultChute c false (createRecord c d .stranded s))
  | _ => faultChute c false s

/-- JAM_REPORT (R57, R61). -/
def execJamReport (chute : ChuteId) (s : State) : Host.Outcome State Fault Refusal := .next (jam chute s)

/-- R56: the drum window expires. -/
def expireDrum (c : ChuteId) (s : State) : State :=
  match (s.chute c).state with
  | .drum d _ p => turnEnded c d p .ended .noBag (returnReservation s)
  | _ => s

/-- DRUM_WINDOW_EXPIRY (R56). -/
def execDrumWindowExpiry (chute : ChuteId) (s : State) : Host.Outcome State Fault Refusal :=
  .next (expireDrum chute s)

/-! ## INTAKE -/

/-- R48, R49: a chute masked; a mask that was already MASKED changes nothing. -/
def maskChute (c : ChuteId) (s : State) : State :=
  if (s.chute c).masked then s else modifyChute c (fun k => { k.closing with masked := true }) s

/-- R48. -/
def ownIntakeMask (chute : Nat) (s : State) : Answer :=
  match index 4 chute with
  | none => declined .outOfRange s
  | some c => if !s.store.valid then declined .storeInvalid s else .done .ok [] (maskChute c s)

/-- INTAKE with MASK (R48). -/
def execIntakeMask (l : LinkId) (tag chute : Nat) (s : State) : Host.Outcome State Fault Refusal :=
  .next (takePlain l tag .intake (ownIntakeMask chute) s)

/-- R48. -/
def ownIntakeUnmask (chute : Nat) (s : State) : Answer :=
  match index 4 chute with
  | none => declined .outOfRange s
  | some c =>
    if !s.store.valid then declined .storeInvalid s
    else .done .ok [] (modifyChute c (fun k => { k with masked := false }) s)

/-- INTAKE with UNMASK (R48). -/
def execIntakeUnmask (l : LinkId) (tag chute : Nat) (s : State) : Host.Outcome State Fault Refusal :=
  .next (takePlain l tag .intake (ownIntakeUnmask chute) s)

/-- R48, R49: the branch-wide intake close; CLOSED already, it changes nothing. -/
def closeIntake (s : State) : State :=
  if s.intakeClosed then s else { s with chutes := s.chutes.map Chute.closing, intakeClosed := true }

/-- R48. -/
def ownIntakeCloseAll (s : State) : Answer :=
  if !s.store.valid then declined .storeInvalid s else .done .ok [] (closeIntake s)

/-- INTAKE with CLOSE ALL (R48). -/
def execIntakeCloseAll (l : LinkId) (tag : Nat) (s : State) : Host.Outcome State Fault Refusal :=
  .next (takePlain l tag .intake ownIntakeCloseAll s)

/-- R48. -/
def ownIntakeOpenAll (s : State) : Answer :=
  if !s.store.valid then declined .storeInvalid s else .done .ok [] { s with intakeClosed := false }

/-- INTAKE with OPEN ALL (R48). -/
def execIntakeOpenAll (l : LinkId) (tag : Nat) (s : State) : Host.Outcome State Fault Refusal :=
  .next (takePlain l tag .intake ownIntakeOpenAll s)

/-- R48: INTAKE with an action that is none of the four. -/
def takeUnknownIntake (l : LinkId) (tag : Nat) (s : State) : State := takePlain l tag .intake (declined .outOfRange) s

/-! ## CLEAR CHUTE and READ CHUTE -/

/-- Copies of the records of a list of custody numbers, in its order. -/
def copiesOf (s : State) (numbers : List Nat) : List ResultRecord := (numbers.filterMap s.find).map .custody

/-- R63: a faulted chute cleared: its queued records STRANDED, its queue empty, the chute IDLE. The panel shows READY or
CLOSED by the condition, without a hold (DEDUCED from R47, log entry 12). -/
def clearFaulted (c : ChuteId) (s : State) : State :=
  let numbers := (s.chute c).queue
  let s := numbers.foldl (fun s n => modifyRecord n Record.stranded s) s
  raiseTimes .stranded (if numbers.isEmpty then 0 else 1)
    (modifyChute c (fun k => { k with state := .idle, hold := none, queue := [] }) s)

/-- R63. -/
def ownClearChute (l : LinkId) (chute : Nat) (s : State) : Answer :=
  match index 4 chute with
  | none => declined .outOfRange s
  | some c =>
    if !s.store.valid then declined .storeInvalid s
    else if !holds s l (hatchResource c) then declined .notClaimed s
    else if (s.chute c).state ≠ .fault then declined .wrongState s
    else .done .ok (copiesOf (clearFaulted c s) (s.chute c).queue) (clearFaulted c s)

/-- CLEAR CHUTE (R63). -/
def execClearChute (l : LinkId) (tag chute : Nat) (s : State) : Host.Outcome State Fault Refusal :=
  .next (takePlain l tag .clearChute (ownClearChute l chute) s)

/-- R64: the copy of a chute. -/
def chuteCopy (s : State) (c : ChuteId) : ResultRecord :=
  .chute { number := c, chute := s.chute c, intakeClosed := s.intakeClosed, isClosed := chuteClosed s c,
           conditions := BitVec.ofNat 4 (setValue (closingConditions s c)), panel := panel s c }

/-- R64. -/
def ownReadChute (chute : Option Nat) (s : State) : Answer :=
  match chute with
  | none => .done .ok ((List.finRange 4).map (chuteCopy s)) s
  | some n =>
    match index 4 n with
    | none => declined .outOfRange s
    | some c => .done .ok [chuteCopy s c] s

/-- READ CHUTE (R64). -/
def execReadChute (l : LinkId) (tag : Nat) (chute : Option Nat) (s : State) : Host.Outcome State Fault Refusal :=
  .next (takePlain l tag .readChute (ownReadChute chute) s)

end Sys2Proof.Machine
end

