-- ==== Sys2Proof/Machine/Station.lean ====
section
/-! DEFINITION. The check station (chapter 4): loading, measuring, evaluation, the check rules, the request for a
place, and the commands RE-ENTER, CLEAR STATION, SET RULE and READ STATION. -/

namespace Sys2Proof.Machine

/-! ## Loading -/

/-- R74, R77, R78: the load completes: the settle timer and the first read attempt start. -/
def completeLoad (s : State) : State :=
  match s.station.state with
  | .loading n src _ =>
    setStation
      (.measuring n src
        { settle := .running s.store.params.settleDelay, made := 0, allowed := s.store.params.readAttempts,
          reads := .attempt Config.attemptMs }) s
  | _ => s

/-- PRESENCE_REPORT (R74); in any state but LOADING it is ignored. -/
def execPresenceReport (s : State) : Host.Outcome State Fault Refusal := .next (completeLoad s)

/-- R75: the source of a failed load: the chute of a throat enters FAULT, the service queue has none. -/
def faultSource (src : Source) (s : State) : State :=
  match src with
  | .service => s
  | .throat c => faultChute c (s.chute c).inDrum s

/-- R75: the load timer expires; the arbiter then grants the next eligible requester. -/
def failLoad (s : State) : State :=
  match s.station.state with
  | .loading n src _ =>
    arbitrate (faultSource src (raise .stranded (modifyRecord n Record.stranded (setStation .idle s))))
  | _ => s

/-- LOAD_TIMEOUT (R75). -/
def execLoadTimeout (s : State) : Host.Outcome State Fault Refusal := .next (failLoad s)

/-! ## Evaluation -/

/-- The advice entry a record names (R27). -/
def adviceOf (s : State) (r : Record) : Option Advice := r.advice.bind (adviceAt s)

/-- R80: the lookup of a tag at an evaluation: UNADVISED, DUPLICATE for an entry already MATCHED, or the index of
an OPEN entry to match. -/
def lookup (s : State) (t : Nat) : Option Nat × ReasonSet :=
  match adviceByTag s t with
  | none => (none, Reason.only .unadvised)
  | some a => if a.matched.isSome then (none, Reason.only .duplicate) else (some a.index, 0)

/-- What the tag and advice tests of an evaluation find: the tag and tamper to write, the advice the record then
names, whether that advice is newly matched, and the reasons. -/
structure TagFinding where
  tag : Option Nat
  tamper : Tamper
  advice : Option Nat
  matchedNow : Bool
  reasons : ReasonSet

/-- R80, R83: the lookup made after a duplicate test. -/
def afterDuplicateTest (s : State) (n t : Nat) (tamper : Tamper) : TagFinding :=
  if tagCarriedElsewhere s n t then
    { tag := some t, tamper := tamper, advice := none, matchedNow := false, reasons := Reason.only .duplicate }
  else
    { tag := some t, tamper := tamper, advice := (lookup s t).1, matchedNow := (lookup s t).1.isSome,
      reasons := (lookup s t).2 }

/-- The tamper a successful read writes (R3). -/
def tamperOf (broken : Bool) : Tamper := if broken then .broken else .intact

/-- R80, R83: the tag and advice tests: a first evaluation for a record without a recorded tag, a recheck for one
that carries a tag. -/
def tagTests (s : State) (r : Record) (res : ReadResult) : TagFinding :=
  match r.tag, res with
  | none, .failed =>
    { tag := none, tamper := .unread, advice := r.advice, matchedNow := false, reasons := Reason.only .unreadable }
  | none, .tag t broken => afterDuplicateTest s r.number t (tamperOf broken)
  | some old, .failed =>
    { tag := some old, tamper := .unread, advice := r.advice, matchedNow := false,
      reasons := addReasonIf (tagCarriedElsewhere s r.number old) .duplicate (Reason.only .unreadable) }
  | some old, .tag t broken =>
    if t = old then
      if r.advice.isSome then
        { tag := some t, tamper := tamperOf broken, advice := r.advice, matchedNow := false,
          reasons := addReasonIf (tagCarriedElsewhere s r.number t) .duplicate 0 }
      else afterDuplicateTest s r.number t (tamperOf broken)
    else
      { tag := some t, tamper := tamperOf broken, advice := r.advice, matchedNow := false,
        reasons := addReasonIf (tagCarriedElsewhere s r.number t) .duplicate (Reason.only .tagChanged) }

/-- R81: STALE: the entry's date is neither the arrival date nor the arrival date less 1. -/
def isStale (arrival entry : Nat) : Bool := entry != arrival && !(decide (1 ≤ arrival) && entry == arrival - 1)

/-- R81: the difference of two weights passes the tolerance. -/
def outsideTolerance (tolerance measured declared : Nat) : Bool :=
  decide (declared + tolerance < measured) || decide (measured + tolerance < declared)

/-- R81: the checks against the advice a record has. -/
def adviceReasons (p : Params) (r : Record) (w : Nat) (a : Advice) (set : ReasonSet) : ReasonSet :=
  addReasonIf (a.weight.any (outsideTolerance p.weightTolerance w)) .weight <|
    addReasonIf (a.depositor != r.depositor) .wrongDepositor <|
      addReasonIf (isStale r.arrivalDate a.date) .stale set

/-- R81: the two tests made for every evaluated record. -/
def commonReasons (w : Nat) (t : Tamper) (set : ReasonSet) : ReasonSet :=
  addReasonIf (t == .broken) .tamper (addReasonIf (w == Config.overRange) .weight set)

/-- Table 18: the value of a quantity, absent where it is not available. -/
def quantityValue (s : State) (r : Record) (w : Nat) (a : Option Advice) : Quantity → Option Int
  | .weight => some w
  | .weightDeviation => (a.bind Advice.weight).map fun d => (w : Int) - d
  | .declaredValue => a.map fun a => (a.notes : Int) + a.coins
  | .arrivalTime => some r.arrivalSeconds
  | .depositorBags => some ((((s.roster.get r.depositor).map Depositor.arrivals).getD 0 : Nat) : Int)
  | .adviceLag => a.map fun a => (r.arrivalDate : Int) - a.date

/-- R84: a quantity stands in the relation a condition names to a reference; OFF is not tested. -/
def Condition.test (c : Condition) (v reference : Int) : Bool :=
  match c with
  | .eq => v == reference
  | .ne => v != reference
  | .gt => decide (reference < v)
  | .ge => decide (reference ≤ v)
  | .lt => decide (v < reference)
  | .le => decide (v ≤ reference)
  | .off => false

/-- R84: the mark a rule gives, absent where it does not match. -/
def ruleMark (s : State) (r : Record) (w : Nat) (a : Option Advice) (k : CheckRule) : Option RuleAction :=
  match quantityValue s r w a k.quantity with
  | none => none
  | some v => if k.condition.test v k.reference then some k.action else none

/-- R82: the bag kind: from the advice if the record has one, otherwise by the coin threshold. -/
def kindOf (p : Params) (w : Nat) (a : Option Advice) : BagKind :=
  match a with
  | some a => a.kind
  | none => if p.coinThreshold ≤ w then .coin else .note

/-- R80 to R84: the record as an evaluation leaves it, with the advice entry its findings name. -/
def Record.evaluated (r : Record) (s : State) (w : Nat) (f : TagFinding) (a : Option Advice) : Record :=
  let marks := s.station.rules.map (ruleMark s r w a)
  let found := match a with
    | some a => adviceReasons s.store.params r w a f.reasons
    | none => f.reasons
  { r with
    tag := f.tag
    tamper := some f.tamper
    weight := some w
    advice := f.advice
    kind := some (kindOf s.store.params w a)
    handling := a.map Advice.handling
    marks := marks
    reasons := addReasonIf (marks.cells.any (· == some .hold)) .rule (commonReasons w f.tamper found) }

/-- R27: an entry becomes MATCHED to a record. -/
def matchEntry (i n : Nat) (s : State) : State :=
  { s with
    advices :=
      { s.advices with
        entries := s.advices.entries.map fun a => if a.index = i then { a with matched := some n } else a } }

/-- R79 to R84: everything an evaluation writes: the record and, where an OPEN entry is matched, the entry. -/
def assessed (n : Nat) (w : Nat) (res : ReadResult) (s : State) : State :=
  match s.find n with
  | none => s
  | some r =>
    let f := tagTests s r res
    let a := f.advice.bind (adviceAt s)
    let s' := if f.matchedNow then (match f.advice with | some i => matchEntry i n s | none => s) else s
    modifyRecord n (fun _ => r.evaluated s w f a) s'

/-- R86: the request for a place: PLACING with the place granted, or BLOCKED with STATION_BLOCKED raised. -/
def requestPlace (n : Nat) (src : Source) (s : State) : State :=
  match placeGranted n src s with
  | some s' => testLowMarks s'
  | none => raise .stationBlocked (setStation (.blocked n src) s)

/-- R79: the evaluation is made in the event that completes the second of the settle latch and the reads. -/
def evaluateIfReady (s : State) : State :=
  match s.station.state with
  | .measuring n src m =>
    match m.settle, m.reads with
    | .latched w, .done res => requestPlace n src (assessed n w res s)
    | _, _ => s
  | _ => s

/-! ## Measuring -/

/-- R77: the settle timer expires and the scale value is latched; 30,000 stands for over range. -/
def latchWeight (scale : Nat) (s : State) : State :=
  match s.station.state with
  | .measuring n src m =>
    match m.settle with
    | .running _ =>
      evaluateIfReady (setStation (.measuring n src { m with settle := .latched (min scale Config.overRange) }) s)
    | .latched _ => s
  | _ => s

/-- SETTLE_TIMER_EXPIRY (R77). -/
def execSettleTimerExpiry (scale : Nat) (s : State) : Host.Outcome State Fault Refusal := .next (latchWeight scale s)

/-- R78: the reads after an attempt that ended: done with a tag, a next attempt, or done FAILED. -/
def readsAfter (m : Measuring) (report : ReadReport) : Reads :=
  match report with
  | .tag t broken =>
    if isTag t then .done (.tag t broken)
    else if m.made + 1 < m.allowed then .attempt Config.attemptMs else .done .failed
  | .failure => if m.made + 1 < m.allowed then .attempt Config.attemptMs else .done .failed

/-- R78: a read attempt ends. Where no attempt runs, once the reads are done and outside MEASURING, a report is ignored
(DESIGN CHOICE, log entry 30). -/
def endAttempt (report : ReadReport) (s : State) : State :=
  match s.station.state with
  | .measuring n src m =>
    match m.reads with
    | .attempt _ =>
      evaluateIfReady
        (setStation (.measuring n src { m with made := m.made + 1, reads := readsAfter m report }) s)
    | .done _ => s
  | _ => s

/-- TAG_READ_REPORT (R78). -/
def execTagReadReport (report : ReadReport) (s : State) : Host.Outcome State Fault Refusal :=
  .next (endAttempt report s)

/-- TAG_READ_ATTEMPT_TIMEOUT (R78): an attempt without a report is a failure. -/
def execTagReadAttemptTimeout (s : State) : Host.Outcome State Fault Refusal := .next (endAttempt .failure s)

/-! ## Commands -/

/-- R73. -/
def ownReEnter (l : LinkId) (n : Nat) (s : State) : Answer :=
  if n = 0 then declined .outOfRange s
  else if !s.store.valid then declined .storeInvalid s
  else if !holds s l stationResource then declined .notClaimed s
  else
    match s.find n with
    | none => declined .notFound s
    | some r =>
      if r.state ≠ .stranded ∧ r.state ≠ .missing ∧ r.state ≠ .outTeller then declined .wrongState s
      else if Config.serviceSize ≤ s.station.service.length then declined .full s
      else
        .done .ok [] <| arbitrate <|
          modifyRecord n (fun r => { r with state := .waiting })
            { s with station := { s.station with service := s.station.service ++ [n] } }

/-- RE-ENTER (R73). -/
def execReEnter (l : LinkId) (tag custody : Nat) (s : State) : Host.Outcome State Fault Refusal :=
  .next (takePlain l tag .reEnter (ownReEnter l custody) s)

/-- R89: from BLOCKED, the current record STRANDED and the station IDLE, before the arbiter's next grant. -/
def strandBlocked (n : Nat) (s : State) : State :=
  raise .stranded (modifyRecord n Record.stranded (setStation .idle s))

/-- R89. -/
def ownClearStation (l : LinkId) (s : State) : Answer :=
  if !s.store.valid then declined .storeInvalid s
  else if !holds s l stationResource then declined .notClaimed s
  else
    match s.station.state with
    | .blocked n _ => .done .ok (copiesOf (strandBlocked n s) [n]) (arbitrate (strandBlocked n s))
    | .fault => .done .ok [] (arbitrate (setStation .idle s))
    | _ => declined .wrongState s

/-- CLEAR STATION (R89). -/
def execClearStation (l : LinkId) (tag : Nat) (s : State) : Host.Outcome State Fault Refusal :=
  .next (takePlain l tag .clearStation (ownClearStation l) s)

/-- R85. -/
def ownSetRule (n : Nat) (a : RuleArgs) (s : State) : Answer :=
  match (if n = 0 then none else index 8 (n - 1)), ruleOf a with
  | some i, some r =>
    if !s.store.valid then declined .storeInvalid s
    else .done .ok [] { s with station := { s.station with rules := s.station.rules.set i r } }
  | _, _ => declined .outOfRange s

/-- SET RULE (R85). -/
def execSetRule (l : LinkId) (tag number : Nat) (fields : RuleArgs) (s : State) : Host.Outcome State Fault Refusal :=
  .next (takePlain l tag .setRule (ownSetRule number fields) s)

/-- R91: the station record and the eight rule records. -/
def ownReadStation (s : State) : Answer :=
  .done .ok (.station s.station s.store.params.priority ::
    (List.finRange 8).map fun i => .rule i (s.station.rules.get i)) s

/-- READ STATION (R91). -/
def execReadStation (l : LinkId) (tag : Nat) (s : State) : Host.Outcome State Fault Refusal :=
  .next (takePlain l tag .readStation ownReadStation s)

end Sys2Proof.Machine
end

