-- ==== Sys2Proof/Machine/Count.lean ====
section
/-! DEFINITION. Count results and carrier manifests (chapter 8): COUNT RESULT and the five MANIFEST commands. -/

namespace Sys2Proof.Machine

/-! ## COUNT RESULT -/

/-- R159: the difference of a count from the declaration of an advice entry. -/
def differenceFrom (notes coins : Nat) (a : Advice) : Int := ((notes : Int) + coins) - ((a.notes : Int) + a.coins)

/-- R160: a difference lies further from 0 than the tolerance. -/
def isDiscrepant (tolerance : Nat) (difference : Int) : Bool := decide (tolerance < difference.natAbs)

/-- R158, R160: the verdict on a difference. -/
def verdictOf (tolerance : Nat) : Option Int → Verdict
  | none => .unadvised
  | some d => if isDiscrepant tolerance d then .discrepant else .agreed

/-- R41: a value added to a total. -/
def addTotal (total v : Nat) : Nat := min Config.maxTotal (total + v)

/-- R41: whether an addition passes the maximum, as what it adds to the saturation count. -/
def passes (total v : Nat) : Nat := if Config.maxTotal < total + v then 1 else 0

/-- R41, R161: a count result carried into a depositor's totals. -/
def Depositor.credited (counted : Nat) (declared : Option Nat) (discrepant : Bool) (d : Depositor) : Depositor :=
  { d with
    counted := addTotal d.counted counted
    declared := addTotal d.declared (declared.getD 0)
    saturation := min 255 (d.saturation + passes d.counted counted + (declared.map (passes d.declared)).getD 0)
    discrepancies := if discrepant then satInc 65535 d.discrepancies else d.discrepancies }

/-- R159, R160: the per-date counts of a count result. -/
def DateCounts.countTaken (discrepant : Bool) (c : DateCounts) : DateCounts :=
  { c with counted := satInc 65535 c.counted,
           discrepancies := if discrepant then satInc 65535 c.discrepancies else c.discrepancies }

/-- R159 to R161: a count result applied to an OUT_TELLER record. -/
def applyCount (r : Record) (notes coins : Nat) (s : State) : State :=
  let a := adviceOf s r
  let difference := a.map (differenceFrom notes coins)
  let discrepant := verdictOf s.store.params.countTolerance difference == .discrepant
  raiseTimes .discrepancy (if discrepant then 1 else 0) <|
    modifyDepositor r.depositor
      (Depositor.credited (notes + coins) (a.map fun a => a.notes + a.coins) discrepant) <|
      countUp (DateCounts.countTaken discrepant) <|
        modifyRecord r.number
          (fun r => { r with state := .counted, count := some { notes, coins, difference } }) s

/-- R158: the result record of a count. -/
def countRecord (r : Record) (notes coins : Nat) (s : State) : List ResultRecord :=
  ((applyCount r notes coins s).find r.number).toList.map fun x =>
    .counted x (verdictOf s.store.params.countTolerance (x.count.bind Count.difference))
      s.store.params.countTolerance

/-- R158. -/
def ownCountResult (n notes coins : Nat) (s : State) : Answer :=
  if n = 0 ∨ Config.maxAmount < notes ∨ Config.maxAmount < coins then declined .outOfRange s
  else if !s.store.valid then declined .storeInvalid s
  else
    match s.find n with
    | none => declined .notFound s
    | some r =>
      if r.state = .counted then declined .alreadyCounted s
      else if r.state ≠ .outTeller then declined .wrongState s
      else .done .ok (countRecord r notes coins s) (applyCount r notes coins s)

/-- COUNT RESULT (R158). -/
def execCountResult (l : LinkId) (tag custody notes coins : Nat) (s : State) : Host.Outcome State Fault Refusal :=
  .next (takePlain l tag .countResult (ownCountResult custody notes coins) s)

/-! ## The manifest summary -/

/-- The entries of the open manifest; none where no manifest is open. -/
def manifestEntries (s : State) : List Nat := (s.manifest.current.map Manifest.entries).getD []

/-- R171: an entry with its record's state and, for a STORED record, its compartment. -/
def entryOf (r : Record) : ManifestEntry :=
  { number := r.number, state := r.state, compartment := if r.state = .stored then r.compartment else none }

/-- The entries' records in list order. -/
def entryRecords (s : State) : List Record := (manifestEntries s).filterMap s.find

/-- The entries whose records are OUT_CARRIER. -/
def carried (s : State) : List Record := (entryRecords s).filter fun r => r.state == .outCarrier

/-- The entries whose records are not OUT_CARRIER. -/
def notCarried (s : State) : List Record := (entryRecords s).filter fun r => r.state != .outCarrier

/-- R171: the manifest summary. -/
def manifestSummary (s : State) : ResultRecord :=
  .manifestSummary s.manifest.counter (s.manifest.current.map fun m => (m.number, m.openedAt)) (carried s).length
    ((entryRecords s).map entryOf)

/-- R171: a manifest command ends with the summary as its first result record. -/
def withManifest (code : CompletionCode) (more : List ResultRecord) (s : State) : Answer :=
  .done code (manifestSummary s :: more) s

/-- The open manifest replaced. -/
def setManifest (m : Option Manifest) (s : State) : State :=
  { s with manifest := { s.manifest with current := m } }

/-! ## The commands -/

/-- R164: the counter after a number is given out. -/
def nextManifest (n : Nat) : Nat := if n < Config.maxManifest then n + 1 else 1

/-- R164: the opened-at time, absent while the clock is invalid. -/
def openingTime (s : State) : Option (Nat × Nat) :=
  if s.clock.isValid then some (s.clock.date, s.clock.seconds) else none

/-- R164: a manifest opened with no entries. -/
def startManifest (s : State) : State :=
  { s with
    manifest :=
      { counter := nextManifest s.manifest.counter
        current := some { number := s.manifest.counter, openedAt := openingTime s, entries := [] } } }

/-- R164. -/
def ownManifestOpen (s : State) : Answer :=
  if !s.store.valid then withManifest .storeInvalid [] s
  else if s.manifest.current.isSome then withManifest .wrongState [] s
  else withManifest .ok [] (startManifest s)

/-- MANIFEST OPEN (R164). -/
def execManifestOpen (l : LinkId) (tag : Nat) (s : State) : Host.Outcome State Fault Refusal :=
  .next (takePlain l tag .manifestOpen ownManifestOpen s)

/-- R165. -/
def ownManifestAdd (n : Nat) (s : State) : Answer :=
  if n = 0 then withManifest .outOfRange [] s
  else if !s.store.valid then withManifest .storeInvalid [] s
  else
    match s.manifest.current with
    | none => withManifest .wrongState [] s
    | some m =>
      match s.find n with
      | none => withManifest .notFound [] s
      | some r =>
        if m.entries.contains n then withManifest .duplicate [] s
        else if r.state ≠ .stored ∨ r.handling ≠ some .through then withManifest .wrongState [] s
        else if Config.manifestSize ≤ m.entries.length then withManifest .full [] s
        else withManifest .ok [] (setManifest (some { m with entries := m.entries ++ [n] }) s)

/-- MANIFEST ADD (R165). -/
def execManifestAdd (l : LinkId) (tag custody : Nat) (s : State) : Host.Outcome State Fault Refusal :=
  .next (takePlain l tag .manifestAdd (ownManifestAdd custody) s)

/-- R166. -/
def ownManifestDrop (n : Nat) (s : State) : Answer :=
  if n = 0 then withManifest .outOfRange [] s
  else if !s.store.valid then withManifest .storeInvalid [] s
  else
    match s.manifest.current with
    | none => withManifest .wrongState [] s
    | some m =>
      if !m.entries.contains n then withManifest .notFound [] s
      else if (s.find n).any fun r => r.state == .outCarrier then withManifest .wrongState [] s
      else withManifest .ok [] (dropEntry n s)

/-- MANIFEST DROP (R166). -/
def execManifestDrop (l : LinkId) (tag custody : Nat) (s : State) : Host.Outcome State Fault Refusal :=
  .next (takePlain l tag .manifestDrop (ownManifestDrop custody) s)

/-- R169: one entry's record DISPATCHED under a manifest number and counted. -/
def dispatch (number : Nat) (s : State) (n : Nat) : State :=
  countUp (fun k => { k with dispatched := satInc 65535 k.dispatched })
    (modifyRecord n (fun r => { r with state := .dispatched, manifest := some number }) s)

/-- R169: every entry dispatched and the manifest removed. -/
def closeManifest (m : Manifest) (s : State) : State := setManifest none (m.entries.foldl (dispatch m.number) s)

/-- R169, R171. -/
def ownManifestClose (s : State) : Answer :=
  if !s.store.valid then withManifest .storeInvalid [] s
  else
    match s.manifest.current with
    | none => withManifest .wrongState [] s
    | some m =>
      if (notCarried s).isEmpty then
        withManifest .ok (copiesOf (closeManifest m s) m.entries) (closeManifest m s)
      else withManifest .incomplete ((notCarried s).map fun r => .manifestEntry (entryOf r)) s

/-- MANIFEST CLOSE (R169). -/
def execManifestClose (l : LinkId) (tag : Nat) (s : State) : Host.Outcome State Fault Refusal :=
  .next (takePlain l tag .manifestClose ownManifestClose s)

/-- R170, R171. -/
def ownManifestAbandon (s : State) : Answer :=
  if !s.store.valid then withManifest .storeInvalid [] s
  else if s.manifest.current.isNone then withManifest .wrongState [] s
  else if (carried s).isEmpty then withManifest .ok [] (setManifest none s)
  else withManifest .wrongState ((carried s).map fun r => .manifestEntry (entryOf r)) s

/-- MANIFEST ABANDON (R170). -/
def execManifestAbandon (l : LinkId) (tag : Nat) (s : State) : Host.Outcome State Fault Refusal :=
  .next (takePlain l tag .manifestAbandon ownManifestAbandon s)

end Sys2Proof.Machine
end

