-- ==== Sys2Proof/Machine/Custody.lean ====
section
/-! DEFINITION. The custody register's own commands (chapter 1): READ RECORD, LIST RECORDS, CLEAR REASON, VOID,
PURGE and its walk. -/

namespace Sys2Proof.Machine

/-! ## READ RECORD and LIST RECORDS -/

/-- R19, R25. -/
def ownReadRecord (n : Nat) (s : State) : Answer :=
  if n = 0 then declined .outOfRange s
  else if !s.store.valid then declined .storeInvalid s
  else
    match s.find n with
    | none => declined .notFound s
    | some r => .done .ok [.custody r] s

/-- READ RECORD (R19). -/
def execReadRecord (l : LinkId) (tag custody : Nat) (s : State) : Host.Outcome State Fault Refusal :=
  .next (takePlain l tag .readRecord (ownReadRecord custody) s)

/-- R20: the criteria of a filter lie in their ranges. -/
def filterInRange (f : RecordFilter) : Bool :=
  (f.state.all fun k => (atPlace recordStates k).isSome) && (f.compartment.all (· < 48)) &&
  (f.depositor.all (· < 128)) && f.date.all (· ≤ Config.lastDate)

/-- R20: a record meets every criterion given. -/
def meetsFilter (f : RecordFilter) (r : Record) : Bool :=
  (f.state.all fun k => atPlace recordStates k == some r.state) &&
  (f.compartment.all fun c => r.compartment.map Fin.val == some c) &&
  (f.depositor.all fun d => r.depositor.val == d) && f.date.all (· == r.arrivalDate)

/-- R20, R25. -/
def ownListRecords (f : RecordFilter) (s : State) : Answer :=
  if !filterInRange f then declined .outOfRange s
  else if !s.store.valid then declined .storeInvalid s
  else .done .ok ((s.register.records.filter (meetsFilter f)).map .custody) s

/-- LIST RECORDS (R20). -/
def execListRecords (l : LinkId) (tag : Nat) (criteria : RecordFilter) (s : State) :
    Host.Outcome State Fault Refusal :=
  .next (takePlain l tag .listRecords (ownListRecords criteria) s)

/-! ## CLEAR REASON and VOID -/

/-- Table 9: the reasons CLEAR REASON does not remove. -/
def Reason.fixed (r : Reason) : Bool := r == .unreadable || r == .unadvised || r == .duplicate

/-- R15, R25. -/
def ownClearReason (n code : Nat) (s : State) : Answer :=
  match atPlace holdReasons code with
  | none => declined .outOfRange s
  | some x =>
    if !s.store.valid then declined .storeInvalid s
    else
      match s.find n with
      | none => declined .notFound s
      | some r =>
        if r.state ≠ .held then declined .wrongState s
        else if x.fixed then declined .wrongState s
        else if !hasReason r.reasons x then declined .notFound s
        else .done .ok [] (modifyRecord n (·.without x) s)

/-- CLEAR REASON (R15). -/
def execClearReason (l : LinkId) (tag custody reason : Nat) (s : State) : Host.Outcome State Fault Refusal :=
  .next (takePlain l tag .clearReason (ownClearReason custody reason) s)

/-- R16, R25. -/
def ownVoid (n : Nat) (s : State) : Answer :=
  if !s.store.valid then declined .storeInvalid s
  else
    match s.find n with
    | none => declined .notFound s
    | some r =>
      if r.state ≠ .stranded ∧ r.state ≠ .missing then declined .wrongState s
      else .done .ok [] (modifyRecord n (fun r => { r with state := .void }) s)

/-- VOID (R16). -/
def execVoidRecord (l : LinkId) (tag custody : Nat) (s : State) : Host.Outcome State Fault Refusal :=
  .next (takePlain l tag .voidRecord (ownVoid custody) s)

/-! ## PURGE -/

/-- R17, R25. -/
def ownPurge (date : Nat) (s : State) : Answer :=
  if !s.store.valid then declined .storeInvalid s
  else .started { s with register := { s.register with walk := some ⟨date, 0⟩ } }

/-- PURGE (R17). -/
def execPurge (l : LinkId) (tag date : Nat) (s : State) : Host.Outcome State Fault Refusal :=
  .next (takePlain l tag .purge (ownPurge date) s)

/-- R17: the walk removes a terminal record that arrived on its date or earlier. -/
def Record.purged (r : Record) (date : Nat) : Bool := r.state.isTerminal && decide (r.arrivalDate ≤ date)

/-- R17, R35: one record removed from the register, and the advice entry it names from the advice table. -/
def removeRecord (s : State) (r : Record) : State :=
  { s with
    register := { s.register with records := s.register.records.filter fun x => x.number != r.number }
    advices := match r.advice with | some i => s.advices.removed i | none => s.advices }

/-- R17: the walk visits a record. -/
def visitRecord (date : Nat) (s : State) (r : Record) : State := if r.purged date then removeRecord s r else s

/-- R17, R18: the records the walk has not yet visited. -/
def unvisited (w : Walk) (s : State) : List Record := s.register.records.filter fun r => decide (w.visited < r.number)

/-- R17: the walk visits its next record, one an idle tick (log entry 4). -/
def walkOn (s : State) : State :=
  match s.register.walk with
  | none => s
  | some w =>
    match unvisited w s with
    | [] => s
    | r :: _ =>
      let s := visitRecord w.date s r
      { s with register := { s.register with walk := some ⟨w.date, r.number⟩ } }

/-- R17: the walk visits every record it has not yet visited and ends; PURGE ends OK. -/
def endWalk (s : State) : State :=
  match s.register.walk with
  | none => s
  | some w =>
    let s := (unvisited w s).foldl (visitRecord w.date) s
    endLong 1 .ok [] { s with register := { s.register with walk := none } }

/-- PURGE_WALK_END (R17); without a walk in progress nothing happens (DESIGN CHOICE, log entry 30). -/
def execPurgeWalkEnd (s : State) : Host.Outcome State Fault Refusal := .next (endWalk s)

end Sys2Proof.Machine
end

