-- ==== Sys2Proof/Machine/Doors.lean ====
section
/-! DEFINITION. Compartment doors and inventory (chapter 7): the access windows, the door machines, OPEN, HAND OUT,
INVENTORY, the scan and its reconciliation. -/

namespace Sys2Proof.Machine

/-! ## Access windows -/

/-- The places of the operations in Tables 23 and 24: OPEN, HAND_OUT, INVENTORY. -/
inductive Gate where
  | openDoor | handOut | inventory
  deriving DecidableEq, Repr

/-- The bit of an operation in an operation set. -/
def Gate.bit : Gate → Nat
  | .openDoor => 0
  | .handOut => 1
  | .inventory => 2

/-- R136: a protection window matches a command. -/
def ProtectionWindow.test (w : ProtectionWindow) (l : LinkId) (g : Gate) (c : CompartmentId) : Bool :=
  w.enabled && inLinkSet w.links l && w.operations.getLsbD g.bit &&
  ((BitVec.ofNat 6 c.val ^^^ w.base) &&& ~~~w.ignore) == 0

/-- R136: at least one protection window matches. -/
def isProtectedFrom (s : State) (l : LinkId) (g : Gate) (c : CompartmentId) : Bool :=
  s.windows.protection.cells.any fun w => w.test l g c

/-- R137: the time test; it counts as met while the clock is invalid. -/
def DetectionWindow.timeTest (w : DetectionWindow) (k : Clock) : Bool :=
  !k.isValid ||
  if w.timeLower ≤ w.timeUpper then decide (w.timeLower ≤ k.seconds) && decide (k.seconds ≤ w.timeUpper)
  else decide (w.timeLower ≤ k.seconds) || decide (k.seconds ≤ w.timeUpper)

/-- R137: a detection window matches a command. -/
def DetectionWindow.test (w : DetectionWindow) (k : Clock) (l : LinkId) (g : Gate) (c : CompartmentId) : Bool :=
  w.enabled && inLinkSet w.links l && w.operations.getLsbD g.bit && decide (w.lower ≤ c.val) &&
  decide (c.val ≤ w.upper) && w.timeTest k

/-- R137: at least one detection window matches. -/
def isDetected (s : State) (l : LinkId) (g : Gate) (c : CompartmentId) : Bool :=
  s.windows.detection.cells.any fun w => w.test s.clock l g c

/-- R13, R137: DETECTED added to the marks of records. -/
def markDetected (numbers : List Nat) (s : State) : State :=
  numbers.foldl (fun s n => modifyRecord n (fun r => { r with detected := true }) s) s

/-- R137: the detection test of an accepted command with the records it affects. -/
def detect (l : LinkId) (g : Gate) (c : CompartmentId) (affected : List Nat) (s : State) : State :=
  if isDetected s l g c then raise .detected (markDetected affected s) else s

/-- R138: the ten window records. -/
def windowRecords (s : State) : List ResultRecord :=
  ((List.finRange 4).map fun i => .protection i (s.windows.protection.get i)) ++
  (List.finRange 6).map fun i => .detection i (s.windows.detection.get i)

/-- R138: the table with the window of a kind and number written, or as it was where no fields are given; absent
where the kind, the number or a field is out of range. -/
def windowsWith (w : Windows) (kind number : Nat) (fields : Option WindowArgs) : Option Windows :=
  if kind = 1 then
    match index 4 number, fields with
    | some _, none => some w
    | some i, some (.protection e b m l o) =>
      (protectionOf e b m l o).map fun p => { w with protection := w.protection.set i p }
    | _, _ => none
  else if kind = 2 then
    match index 6 number, fields with
    | some _, none => some w
    | some i, some (.detection e lo hi tlo thi l o) =>
      (detectionOf e lo hi tlo thi l o).map fun d => { w with detection := w.detection.set i d }
    | _, _ => none
  else none

/-- R138: every end of SET WINDOW carries the table as it then stands. -/
def ownSetWindow (kind number : Nat) (fields : Option WindowArgs) (s : State) : Answer :=
  match windowsWith s.windows kind number fields with
  | none => .done .outOfRange (windowRecords s) s
  | some w =>
    if !s.store.valid then .done .storeInvalid (windowRecords s) s
    else .done .ok (windowRecords { s with windows := w }) { s with windows := w }

/-- SET WINDOW (R138). -/
def execSetWindow (l : LinkId) (tag kind number : Nat) (fields : Option WindowArgs) (s : State) :
    Host.Outcome State Fault Refusal :=
  .next (takePlain l tag .setWindow (ownSetWindow kind number fields) s)

/-! ## The door machine's events -/

/-- R141: the door sensor reports that the door has opened. -/
def openedDoor (c : CompartmentId) (s : State) : State :=
  match (s.box c).door with
  | .unlocked op _ => setDoor c (.opened false (some op) (leftOpenStart s)) s
  | .locked => raise .doorForced (setDoor c (.opened true (some .unattended) (leftOpenStart s)) s)
  | .scanning op _ => raise .doorForced (setDoor c (.opened true (some op) (leftOpenStart s)) s)
  | .opened _ _ _ => s

/-- DOOR_OPENED (R141). -/
def execDoorOpened (compartment : CompartmentId) (s : State) : Host.Outcome State Fault Refusal :=
  .next (openedDoor compartment s)

/-- R142: the door sensor reports that the door has closed. -/
def closedDoor (c : CompartmentId) (s : State) : State :=
  match (s.box c).door with
  | .opened _ op _ => testLowMarks (retry (setDoor c (.scanning (op.getD .unattended) Config.scanMs) s))
  | _ => s

/-- DOOR_CLOSED (R142). -/
def execDoorClosed (compartment : CompartmentId) (s : State) : Host.Outcome State Fault Refusal :=
  .next (closedDoor compartment s)

/-- R140: the unlock window expires in UNLOCKED. -/
def expireUnlock (c : CompartmentId) (s : State) : State :=
  match (s.box c).door with
  | .unlocked op _ => testLowMarks (retry (endDoorOp op .notOpened [] (setDoor c .locked s)))
  | _ => s

/-- UNLOCK_WINDOW_EXPIRY (R140). -/
def execUnlockWindowExpiry (compartment : CompartmentId) (s : State) : Host.Outcome State Fault Refusal :=
  .next (expireUnlock compartment s)

/-- R143: the door-left-open timer expires in OPEN; once expired it does not run. -/
def expireLeftOpen (c : CompartmentId) (s : State) : State :=
  match (s.box c).door with
  | .opened forced op (some _) => raise .doorLeftOpen (setDoor c (.opened forced op none) s)
  | _ => s

/-- DOOR_LEFT_OPEN_TIMER_EXPIRY (R143). -/
def execDoorLeftOpenTimerExpiry (compartment : CompartmentId) (s : State) : Host.Outcome State Fault Refusal :=
  .next (expireLeftOpen compartment s)

/-! ## OPEN, HAND OUT and INVENTORY -/

/-- R146 to R148: the refusals the three commands share, in their order, before `accept`. `access` says whether the
access test is made, `listOk` that the named list is in range. -/
def doorCommand (l : LinkId) (g : Gate) (access : Bool) (compartment : Nat) (listOk : Bool)
    (accept : CompartmentId → Answer) (s : State) : Answer :=
  match index 48 compartment with
  | none => declined .outOfRange s
  | some c =>
    if !listOk then declined .outOfRange s
    else if !s.store.valid then declined .storeInvalid s
    else if isProtectedFrom s l g c then .done .isProtected [] (raise .isProtected s)
    else
      match (if access then bankRefusal s l c else none) with
      | some code => declined code s
      | none =>
        if (s.box c).door.operation.isSome ∨ pendingAt s c ≠ 0 then declined .busy s
        else if (s.box c).door ≠ .locked then declined .wrongState s
        else accept c

/-- R140: the door unlocked for a command. -/
def unlockFor (l : LinkId) (work : DoorWork) (c : CompartmentId) (s : State) : State :=
  setDoor c (.unlocked (.command l work .deliver) (s.store.params.unlockWindow * 1000)) s

/-- R146. -/
def ownOpenDoor (l : LinkId) (compartment : Nat) (s : State) : Answer :=
  doorCommand l .openDoor true compartment true
    (fun c => .started (unlockFor l .openDoor c (detect l .openDoor c (s.box c).occupants s))) s

/-- OPEN (R146). -/
def execOpenDoor (l : LinkId) (tag compartment : Nat) (s : State) : Host.Outcome State Fault Refusal :=
  .next (takePlain l tag .openDoor (ownOpenDoor l compartment) s)

/-- R147: the destination follows the role. -/
def destinationOf (l : LinkId) : Destination := if l = 3 then .carrier else .teller

/-- R147: the test of a named record. -/
def mayHandOut (s : State) (l : LinkId) (c : CompartmentId) (r : Record) : Bool :=
  r.compartment == some c &&
  if l = 3 then r.state == .stored && r.handling == some .through && inManifest s r.number
  else if l = 2 then r.state == .stored
  else r.state == .stored || r.state == .held

/-- R147: the first named custody number that fails, with its code: NOT_FOUND is tested over the whole list first
(log entry 16). -/
def handOutFailure (s : State) (l : LinkId) (c : CompartmentId) (named : List Nat) :
    Option (Nat × CompletionCode) :=
  match named.find? fun n => (s.find n).isNone with
  | some n => some (n, .notFound)
  | none => (named.find? fun n => !(s.find n).any (mayHandOut s l c)).map fun n => (n, .wrongState)

/-- R147: HAND OUT with its list in form and its door ready. -/
def acceptHandOut (l : LinkId) (named : List Nat) (s : State) (c : CompartmentId) : Answer :=
  match handOutFailure s l c named with
  | some (n, code) => .done code [.handOutRefusal n code] s
  | none => .started (unlockFor l (.handOut (destinationOf l) named) c (detect l .handOut c named s))

/-- R147. -/
def ownHandOut (l : LinkId) (compartment : Nat) (named : List Nat) (s : State) : Answer :=
  doorCommand l .handOut true compartment (named.all (· != 0) && decide named.Nodup) (acceptHandOut l named s) s

/-- HAND OUT (R147): a list of one to four custody numbers, any other number is MALFORMED. -/
def execHandOut (l : LinkId) (tag compartment : Nat) (custody : List Nat) (s : State) :
    Host.Outcome State Fault Refusal :=
  .next <| takeCommand l tag .handOut (Command.handOut.allowed l) (1 ≤ custody.length && custody.length ≤ 4)
    (ownHandOut l compartment custody) s

/-- R148. -/
def ownInventory (l : LinkId) (compartment : Nat) (s : State) : Answer :=
  doorCommand l .inventory false compartment true
    (fun c =>
      .started (setDoor c (.scanning (.command l .inventory .deliver) Config.scanMs)
        (detect l .inventory c (s.box c).occupants s))) s

/-- INVENTORY (R148). -/
def execInventory (l : LinkId) (tag compartment : Nat) (s : State) : Host.Outcome State Fault Refusal :=
  .next (takePlain l tag .inventory (ownInventory l compartment) s)

/-! ## Reconciliation -/

/-- The named list of an operation (Table 25). -/
def DoorOp.named : DoorOp → List Nat
  | .command _ (.handOut _ named) _ => named
  | _ => []

/-- The operation is a HAND OUT to the carrier. -/
def DoorOp.toCarrier : DoorOp → Bool
  | .command _ (.handOut .carrier _) _ => true
  | _ => false

/-- The operation is a HAND OUT. -/
def DoorOp.isHandOut : DoorOp → Bool
  | .command _ (.handOut _ _) _ => true
  | _ => false

/-- R151, R152: the state an occupant goes to at a scan that read the tags; absent where it stays. -/
def fate (s : State) (op : DoorOp) (tags : List Nat) (r : Record) : Option RecordState :=
  match r.tag with
  | some t =>
    if tags.contains t then none
    else if !op.named.contains r.number then some .missing
    else if !op.toCarrier then some .outTeller
    else if inManifest s r.number then some .outCarrier
    else some .missing
  | none =>
    if !op.named.contains r.number then none
    else if op.toCarrier then some .outCarrier
    else some .outTeller

/-- The occupants that a scan finds gone, in the order of the list, with the states they go to. -/
def departures (s : State) (op : DoorOp) (tags occupants : List Nat) : List (Nat × RecordState) :=
  occupants.filterMap fun n => ((s.find n).bind (fate s op tags)).map fun st => (n, st)

/-- R151, R168: what a record that leaves the compartment brings about: MISSING raised and the entry dropped, the
hand-out to a teller counted and the entry dropped, or nothing for one that stays in the manifest. -/
def afterDeparture (n : Nat) (st : RecordState) (s : State) : State :=
  match st with
  | .missing => raise .missing (dropEntry n s)
  | .outTeller =>
    dropEntry n (countUp (fun k => { k with handedToTeller := satInc 65535 k.handedToTeller }) s)
  | _ => s

/-- R151: an occupant leaves the compartment. -/
def depart (c : CompartmentId) (s : State) (d : Nat × RecordState) : State :=
  afterDeparture d.1 d.2
    (modifyRecord d.1 (fun r => { r with state := d.2, compartment := none }) (leaveBox c d.1 s))

/-- R14, R153: the record sought for a tag: non-terminal, carrying it, and without DUPLICATE. -/
def soughtRecord (s : State) (t : Nat) : Option Record :=
  s.register.records.find? fun r => !r.state.isTerminal && r.tag == some t && !hasReason r.reasons .duplicate

/-- R153: a record is recovered from these states. -/
def RecordState.isRecoverable : RecordState → Bool
  | .stranded => true
  | .missing => true
  | .outTeller => true
  | .outCarrier => true
  | .stored => true
  | .held => true
  | _ => false

/-- R153: the record a tag recovers into compartment `c`, absent where the tag is foreign. -/
def recoverable (s : State) (c : CompartmentId) (t : Nat) : Option Record :=
  (soughtRecord s t).filter fun r => r.state.isRecoverable && r.compartment != some c

/-- R153: the record leaves the compartment it stood in, if it stood in one. -/
def leaveOld (r : Record) (s : State) : State :=
  match r.compartment with
  | some x => leaveBox x r.number s
  | none => s

/-- R153: a record recovered into compartment `c`. -/
def recover (c : CompartmentId) (r : Record) (s : State) : State :=
  raise .recovered <|
    modifyRecord r.number
      (fun r => { r with state := .held, compartment := some c, reasons := addReason r.reasons .recovered }) <|
        joinBox c r.number (dropEntry r.number (leaveOld r s))

/-- R153, R154: the tags no occupant carries, one after another: the records recovered and the foreign tags. -/
def recoverTags (c : CompartmentId) : List Nat → State → State × List Nat × List Nat
  | [], s => (s, [], [])
  | t :: ts, s =>
    match recoverable s c t with
    | some r =>
      let (s, recovered, foreign) := recoverTags c ts (recover c r s)
      (s, r.number :: recovered, foreign)
    | none =>
      let (s, recovered, foreign) := recoverTags c ts s
      (s, recovered, t :: foreign)

/-- R154: the foreign tags entered in the cleared list. -/
def enterForeign (c : CompartmentId) (tags : List Nat) (s : State) : State :=
  raiseTimes .foreign tags.length
    (modifyBox c (fun b => { b with foreign := tags.take 4, furtherForeign := min 255 (tags.length - 4) }) s)

/-- R155: the classification of a named custody number. One that is no occupant is ELSEWHERE (R152), also where this
same scan reads its tag and recovers it here by R153 (DEDUCED, log entry 28), and also where no record has the number
any more (DESIGN CHOICE, log entry 29). -/
def classOfNamed (occupants : List Nat) (gone : List (Nat × RecordState)) (before : State) (n : Nat) :
    Classification :=
  if !occupants.contains n then .elsewhere
  else
    match gone.find? fun d => d.1 == n with
    | none => .left
    | some d =>
      if d.2 = .missing then .missing
      else if ((before.find n).bind Record.tag).isNone then .takenUnverified
      else .taken

/-- R155: a classification record with the copy of the record as the reconciliation left it; without a copy where no
record has the number (DESIGN CHOICE, log entry 29). -/
def classifiedAs (s : State) (k : Classification) (n : Nat) : ResultRecord := .classified k n (s.find n)

/-- R155: the result records of a reconciliation. -/
def reconciliationResults (op : DoorOp) (occupants : List Nat) (gone : List (Nat × RecordState))
    (recovered foreign : List Nat) (before after : State) : List ResultRecord :=
  let missing := (gone.filter fun d => d.2 == .missing && !op.named.contains d.1).map Prod.fst
  if op.isHandOut then
    (op.named.map fun n => classifiedAs after (classOfNamed occupants gone before n) n) ++
    missing.map (classifiedAs after .missing)
  else
    missing.map (classifiedAs after .missing) ++ recovered.map (classifiedAs after .recovered) ++
    foreign.map .foreignTag

/-- The tags of a scan as R150 has them: in range and without repeats (log entry 17). -/
def scannedTags (tags : List Nat) : List Nat := (tags.filter isTag).dedup

/-- R153: the tags that no occupant carries. -/
def looseTags (s : State) (occupants tags : List Nat) : List Nat :=
  tags.filter fun t => !occupants.any fun n => (s.find n).any fun r => r.tag == some t

/-- R151 to R155: the reconciliation of a scan in compartment `c`, with its result records. -/
def reconcile (c : CompartmentId) (op : DoorOp) (tags : List Nat) (s : State) : State × List ResultRecord :=
  let occupants := (s.box c).occupants
  let gone := departures s op tags occupants
  let (t, recovered, foreign) := recoverTags c (looseTags s occupants tags) (gone.foldl (depart c) s)
  let t := enterForeign c foreign t
  (t, reconciliationResults op occupants gone recovered foreign s t)

/-- R150, R155, R156: the scan is done: reconciled, the operation ended OK, then one retry and the low marks. Where no
scan runs a report of one is ignored (DESIGN CHOICE, log entry 30). -/
def finishScan (c : CompartmentId) (tags : List Nat) (s : State) : State :=
  match (s.box c).door with
  | .scanning op _ =>
    let (t, results) := reconcile c op (scannedTags tags) s
    testLowMarks (retry (endDoorOp op .ok results (setDoor c .locked t)))
  | _ => s

/-- SCAN_DONE (R150). -/
def execScanDone (compartment : CompartmentId) (tags : List Nat) (s : State) : Host.Outcome State Fault Refusal :=
  .next (finishScan compartment tags s)

end Sys2Proof.Machine
end

