-- ==== Sys2Proof/Machine/Links.lean ====
section
/-! DEFINITION. The custody links' own commands and events (chapters 10 and 11): COLLECT, DISCARD, the line
counters, forced errors, notices, frames sent, BREAK, the present line and faulty characters. -/

namespace Sys2Proof.Machine

/-! ## COLLECT and DISCARD -/

/-- R194: COLLECT in RESULT: up to eight held records queued in one RESULT frame, final with the last of them. -/
def Link.collected (tag : Nat) (k : Link) : Link :=
  let rest := k.held.drop 8
  { k with held := rest, phase := if rest.isEmpty then .ready else .result,
           queue := k.queue ++ [.result tag (k.held.take 8) rest.isEmpty] }

/-- R194: DISCARD in RESULT. -/
def Link.discarded (tag : Nat) (k : Link) : Link :=
  { k with held := [], phase := .ready, queue := k.queue ++ [.done tag .ok 0 false] }

/-- R192 to R194: a COLLECT or DISCARD frame received whole: `act` in RESULT, refused in the other phases. -/
def takeResult (l : LinkId) (tag : Nat) (c : Command) (act : Link → Link) (s : State) : State :=
  if (s.link l).hears then
    modifyLink l
      (fun k =>
        let k := k.receivedWhole
        match k.phase with
        | .executing => k.refusedWith tag .executing c.code
        | .ready => k.refusedWith tag .noResult c.code
        | .result => act k) s
  else s

/-- COLLECT (R194). -/
def execCollect (l : LinkId) (tag : Nat) (s : State) : Host.Outcome State Fault Refusal :=
  .next (takeResult l tag .collect (Link.collected tag) s)

/-- DISCARD (R194). -/
def execDiscard (l : LinkId) (tag : Nat) (s : State) : Host.Outcome State Fault Refusal :=
  .next (takeResult l tag .discard (Link.discarded tag) s)

/-- R194: a COLLECT or DISCARD with fields. -/
def takeResultMalformed (l : LinkId) (tag : Nat) (c : Command) (s : State) : State :=
  takeResult l tag c (Link.refusedWith tag .malformed c.code) s

/-! ## Line counters and forced errors -/

/-- R198: the three result records of READ COUNTERS. -/
def counterRecords (n : LinkId) (s : State) : List ResultRecord :=
  [.lineCounters n (s.link n).counters, .dateCounts s.register.current none,
   .dateCounts s.register.lastCounts (some s.register.lastDate)]

/-- R198. -/
def ownReadCounters (l : LinkId) (number : Option Nat) (s : State) : Answer :=
  match number with
  | none => .done .ok (counterRecords l s) s
  | some n =>
    match index 4 n with
    | none => declined .outOfRange s
    | some i => .done .ok (counterRecords i s) s

/-- READ COUNTERS (R198). -/
def execReadCounters (l : LinkId) (tag : Nat) (number : Option Nat) (s : State) :
    Host.Outcome State Fault Refusal :=
  .next (takePlain l tag .readCounters (ownReadCounters l number) s)

/-- R198. -/
def ownClearLinkCounters (l : LinkId) (s : State) : Answer :=
  .done .ok [] (modifyLink l (fun k => { k with counters := .zero }) s)

/-- CLEAR LINK COUNTERS (R198). -/
def execClearLinkCounters (l : LinkId) (tag : Nat) (s : State) : Host.Outcome State Fault Refusal :=
  .next (takePlain l tag .clearLinkCounters (ownClearLinkCounters l) s)

/-- R199: the setting and its count (log entry 13); a value above 255 cannot be encoded (log entry 14). -/
def ownSetForcedError (l : LinkId) (n : Nat) (s : State) : Answer :=
  if 255 < n then declined .outOfRange s
  else .done .ok [] (modifyLink l (fun k => { k with forced := n, forcedCount := 0 }) s)

/-- SET FORCED ERROR (R199). -/
def execSetForcedError (l : LinkId) (tag n : Nat) (s : State) : Host.Outcome State Fault Refusal :=
  .next (takePlain l tag .setForcedError (ownSetForcedError l n) s)

/-- The frame is the DONE of SET FORCED ERROR (R199). -/
def Frame.isFresh : Frame → Bool
  | .done _ _ _ fresh => fresh
  | _ => false

/-- R199: the frame counted `n` is sent with its check inverted under a setting. -/
def isForced (setting n : Nat) : Bool := decide (1 ≤ setting) && n % setting == 0

/-- R189, R199: the part starts sending the frame at the head of the transmit queue; with none waiting nothing happens
(DESIGN CHOICE, log entry 30). -/
def Link.sends (k : Link) : Link :=
  match k.queue with
  | [] => k
  | f :: rest =>
    let counters := { k.counters with framesSent := satInc Config.maxLineCount k.counters.framesSent }
    if f.isFresh then { k with queue := rest, counters := counters, sending := f.bytes false }
    else
      { k with queue := rest, counters := counters, forcedCount := k.forcedCount + 1,
               sending := f.bytes (isForced k.forced (k.forcedCount + 1)) }

/-- FRAME_SENT (R189). -/
def execFrameSent (link : LinkId) (s : State) : Host.Outcome State Fault Refusal :=
  .next (modifyLink link Link.sends s)

/-! ## Notices -/

/-- R202: a cell after READ NOTICES. -/
def NoticeCell.taken (c : NoticeCell) : NoticeCell := { c with flag := false, count := 0 }

/-- R202. -/
def ownReadNotices (l : LinkId) (s : State) : Answer :=
  .done .ok [.notices (s.link l).notices]
    (modifyLink l (fun k => { k with notices := k.notices.map NoticeCell.taken }) s)

/-- READ NOTICES (R202). -/
def execReadNotices (l : LinkId) (tag : Nat) (s : State) : Host.Outcome State Fault Refusal :=
  .next (takePlain l tag .readNotices (ownReadNotices l) s)

/-- R202: the enables written from a set. -/
def enabledFrom (kinds : Nat) (t : Table NoticeCell 20) : Table NoticeCell 20 :=
  .tabulate fun i => { t.get i with enabled := kinds.testBit i.val }

/-- R202; a set with bits beyond the last kind is out of range (log entry 14). -/
def ownNoticeEnable (l : LinkId) (kinds : Nat) (s : State) : Answer :=
  if 2 ^ 20 ≤ kinds then declined .outOfRange s
  else .done .ok [] (modifyLink l (fun k => { k with notices := enabledFrom kinds k.notices }) s)

/-- NOTICE ENABLE (R202). -/
def execNoticeEnable (l : LinkId) (tag kinds : Nat) (s : State) : Host.Outcome State Fault Refusal :=
  .next (takePlain l tag .noticeEnable (ownNoticeEnable l kinds) s)

/-! ## BREAK, the present line and faulty characters -/

/-- R193, R196: the long command's delivery set to DISCARD. -/
def LongCommand.discarded (c : LongCommand) : LongCommand := { c with delivery := .discard }

/-- R196: what a BREAK does to the link itself, apart from its receiver. -/
def Link.dropped (k : Link) : Link :=
  { k with held := [], queue := k.queue.filter Frame.isReport, long := k.long.map LongCommand.discarded,
           phase := .ready }

/-- R149: a link's door operation has its delivery set to DISCARD. -/
def DoorOp.discarded (l : LinkId) (op : DoorOp) : DoorOp :=
  match op with
  | .unattended => .unattended
  | .command k w d => .command k w (if k = l then .discard else d)

/-- R149: the door machine told of a BREAK on a link. -/
def Door.discarded (l : LinkId) : Door → Door
  | .locked => .locked
  | .scanning op ms => .scanning (op.discarded l) ms
  | .unlocked op ms => .unlocked (op.discarded l) ms
  | .opened f op ms => .opened f (op.map (DoorOp.discarded l)) ms

/-- R149, R196: every door machine told. -/
def discardDoors (l : LinkId) (s : State) : State :=
  { s with
    cabinet :=
      { s.cabinet with
        compartments := s.cabinet.compartments.map fun b => { b with door := b.door.discarded l } } }

/-- R196: what a BREAK on a link gives, apart from its receiver. -/
def dropWork (l : LinkId) (s : State) : State := discardDoors l (modifyLink l Link.dropped s)

/-- R196: the receiver recognises a BREAK; an ABSENT link and one in LINE_LOW recognise none (log entry 23). -/
def breakLine (l : LinkId) (s : State) : State :=
  if (s.link l).hears then modifyLink l (fun k => { k with receiver := .lineLow }) (dropWork l s) else s

/-- BREAK (R196). -/
def execLineBreak (link : LinkId) (s : State) : Host.Outcome State Fault Refusal := .next (breakLine link s)

/-- R186: the receive line rises after a BREAK; outside LINE_LOW nothing happens (DESIGN CHOICE, log entry 30). -/
def Link.lineRisen (k : Link) : Link := if k.receiver = .lineLow then { k with receiver := .hunting } else k

/-- RECEIVE_LINE_RISE (R186). -/
def execReceiveLineRise (link : LinkId) (s : State) : Host.Outcome State Fault Refusal :=
  .next (modifyLink link Link.lineRisen s)

/-- R127: a resource is HELD or claimed by a link. -/
def isOf (l : LinkId) : Holder → Bool
  | .held h _ => h == l
  | .cosignWait h _ => h == l
  | _ => false

/-- R127: the resources that a fall of a link's present line retains; link 0 holds nothing. -/
def lostWith (l : LinkId) (s : State) : List (Fin 9) :=
  if l = 0 then [] else (List.finRange 9).filter fun r => isOf l (s.holder r)

/-- R197: the link ABSENT, hunting, with every waiting frame removed. -/
def Link.absent (k : Link) : Link := { k with present := false, receiver := .hunting, queue := [] }

/-- R197: the present line falls; on an ABSENT link the same effects find nothing new (DESIGN CHOICE, log entry 30). -/
def fallLine (l : LinkId) (s : State) : State :=
  let t := modifyLink l Link.absent (dropWork l s)
  retainAll (lostWith l t) t

/-- PRESENT_LINE_FALL (R197). -/
def execPresentLineFall (link : LinkId) (s : State) : Host.Outcome State Fault Refusal := .next (fallLine link s)

/-- R197: the present line rises; a link already PRESENT is left as it is (DESIGN CHOICE, log entry 30). -/
def Link.risen (k : Link) : Link := if k.present then k else { k with present := true, receiver := .hunting }

/-- PRESENT_LINE_RISE (R197). -/
def execPresentLineRise (link : LinkId) (s : State) : Host.Outcome State Fault Refusal :=
  .next (modifyLink link Link.risen s)

/-- R198: the counter of a character fault raised. -/
def LineCounters.faulted (f : CharFault) (c : LineCounters) : LineCounters :=
  match f with
  | .parity => { c with parityErrors := satInc Config.maxLineCount c.parityErrors }
  | .framing => { c with framingErrors := satInc Config.maxLineCount c.framingErrors }
  | .overrun => { c with overrunErrors := satInc Config.maxLineCount c.overrunErrors }

/-- R186: a character with a fault discards the frame being received; outside a frame it is ignored. -/
def Link.faulted (f : CharFault) (k : Link) : Link :=
  match k.receiver with
  | .inFrame _ => if k.present then { k with receiver := .hunting, counters := k.counters.faulted f } else k
  | _ => k

/-- RECEIVED_CHARACTER_FAULT (R186). -/
def execReceivedCharacterFault (link : LinkId) (fault : CharFault) (s : State) :
    Host.Outcome State Fault Refusal :=
  .next (modifyLink link (Link.faulted fault) s)

end Sys2Proof.Machine
end

