-- ==== Sys2Proof/Machine/Store.lean ====
section
/-! DEFINITION. The retained store (chapter 11) and the starts: POWER_UP, RESET_N, INITIALISE STORE and its
completion, and SET PARAMETER. -/

namespace Sys2Proof.Machine

/-! ## Starts -/

/-- R157, R200: a door machine as its sensor reads: OPEN with its left-open timer started, or LOCKED. -/
def doorAtStart (isOpen : Bool) (leftOpenSeconds : Nat) : Door :=
  if isOpen then .opened false none (some (leftOpenSeconds * 1000)) else .locked

/-- R114, R157: the compartment map with every door as its sensor reads. -/
def boxesAtStart (lines : StartLines) (leftOpenSeconds : Nat) (t : Table Compartment 48) : Table Compartment 48 :=
  .tabulate fun c => { t.get c with door := doorAtStart (lines.doorsOpen.getLsbD c.val) leftOpenSeconds }

/-- R200: the links as their lines read; an ABSENT link's receiver hunts (R197). -/
def linksAtStart (lines : StartLines) : Table Link 4 :=
  .tabulate fun l =>
    Link.initial (lines.present.getLsbD l.val) (lines.present.getLsbD l.val && lines.receiveLow.getLsbD l.val)

/-- R23: a record found in CHECKING or ROUTING. -/
def Record.interrupted (r : Record) : Bool := r.state == .checking || r.state == .routing

/-- R23: the register after a start with the store valid. -/
def Register.restarted (r : Register) : Register :=
  { r with records := r.records.map fun x => if x.interrupted then x.stranded else x
           reservations := 0
           walk := none }

/-- R183: the seconds of the branch day from `t` to the next passage of the cutoff. -/
def secondsToCutoff (cutoff t : Nat) : Nat := if t < cutoff then cutoff - t else cutoff + 86400 - t

/-- R183: the clock after `down` seconds without the part running. -/
def Clock.restarted (cutoff down : Nat) (k : Clock) : Clock :=
  { k with
    seconds := (k.seconds + down) % 86400
    validity :=
      match k.validity with
      | .invalid cause => .invalid cause
      | .valid => if secondsToCutoff cutoff k.seconds ≤ down then .invalid .cutoffMissed else .valid }

/-- R23, R45, R65, R92, R114, R133, R135, R157, R174, R183, R200, R208: every block after a start with the store
valid, before the notices and the first grant. The panels show READY or CLOSED by the condition, without a hold (DEDUCED
from R47, log entry 12). -/
def restarted (lines : StartLines) (s : State) : State :=
  { s with
    register := s.register.restarted
    chutes := s.chutes.map fun c => { c with state := .idle, hold := none }
    station :=
      { s.station with
        state := if s.register.records.any Record.interrupted then .fault else .idle
        lastServed := 3 }
    cabinet :=
      { s.cabinet with compartments := boxesAtStart lines s.store.params.leftOpenTime s.cabinet.compartments }
    claims := .initial
    clock := s.clock.restarted s.store.params.cutoff lines.downSeconds
    store := { s.store with clearing := none }
    links := linksAtStart lines }

/-- A notice raised when a condition holds. -/
def raiseIf (b : Bool) (k : Notice) (s : State) : State := raiseTimes k (if b then 1 else 0) s

/-- A start with the store valid: every block's values, the start's notices (R203), the low marks without SPACE_LOW
(R114) and the first grant (R92). -/
def startValid (lines : StartLines) (s : State) : State :=
  let t := withLowMarks (restarted lines s)
  let stranded := s.register.records.any Record.interrupted
  arbitrate <| raiseIf stranded .stationFault <| raiseIf stranded .stranded <|
    raiseIf (!t.clock.isValid) .clockInvalid <| raise .powerReturn t

/-- A start with the store invalid (R24, R45, R65, R93, R115, R133, R135, R157, R174, R184, R200, R208), with the
notices of R203. -/
def startInvalid (lines : StartLines) (s : State) : State :=
  raise .clockInvalid <| raise .storeLost
    { State.reset with
      cabinet :=
        { Cabinet.initial with
          compartments := boxesAtStart lines Params.initial.leftOpenTime Cabinet.initial.compartments }
      links := linksAtStart lines
      pending := s.pending }

/-- R206: a power-up: the store comes up valid when the backup supply held and the indicator reads VALID. -/
def powerUp (battOk : Bool) (lines : StartLines) (s : State) : State :=
  if battOk && s.store.valid then startValid lines s else startInvalid lines s

/-- POWER_UP (R206). -/
def execPowerUp (battOk : Bool) (lines : StartLines) (s : State) : Host.Outcome State Fault Refusal :=
  .next (powerUp battOk lines s)

/-- R206: a reset: the store keeps its indicator. -/
def reset (lines : StartLines) (s : State) : State :=
  if s.store.valid then startValid lines s else startInvalid lines s

/-- RESET_N (R206). -/
def execResetN (lines : StartLines) (s : State) : Host.Outcome State Fault Refusal := .next (reset lines s)

/-! ## INITIALISE STORE -/

/-- R66: a chute at the start of INITIALISE STORE. -/
def Chute.storeClosed (c : Chute) : Chute :=
  match c.state with
  | .idle => c.shownClosed
  | .session _ _ => c.entered .idle .closed
  | .drum _ _ _ => c.entered .idle .closed
  | .fault => c

/-- The number of chutes in DRUM (R46). -/
def drumCount (s : State) : Nat := s.chutes.cells.countP Chute.inDrum

/-- R52, R66, R207: INITIALISE STORE starts: the store INVALID, the chutes closed, the drum reservations returned, the
per-date counters of both sets at 0, where R52 says they are held while it runs (DEDUCED, log entry 32). -/
def startClearing (s : State) : State :=
  { s with
    store := { s.store with valid := false, clearing := some Config.clearingMs }
    chutes := s.chutes.map Chute.storeClosed
    register :=
      { s.register with
        reservations := s.register.reservations - drumCount s
        current := .zero
        lastCounts := .zero } }

/-- R207: a record non-terminal or a compartment not empty. -/
def holdsBags (s : State) : Bool :=
  (s.register.records.any fun r => !r.state.isTerminal) ||
  s.cabinet.compartments.cells.any fun b => !b.occupants.isEmpty

/-- R207. -/
def ownInitialiseStore (s : State) : Answer :=
  if s.store.valid && holdsBags s then declined .wrongState s else .started (startClearing s)

/-- INITIALISE STORE (R207). -/
def execInitialiseStore (l : LinkId) (tag : Nat) (s : State) : Host.Outcome State Fault Refusal :=
  .next (takePlain l tag .initialiseStore ownInitialiseStore s)

/-- R207: every block's values after INITIALISE STORE (R24, R35, R45, R66, R93, R115, R135, R174, R184, R208);
door, chute, station and link states, reservations and a purge walk are left as they stand. -/
def cleared (s : State) : State :=
  { s with
    register := { Register.empty with reservations := s.register.reservations, walk := s.register.walk }
    advices := .empty
    roster := .fill none
    chutes := s.chutes.map fun c => { c with masked := false, queue := [] }
    intakeClosed := false
    station := { Station.initial with state := s.station.state }
    cabinet :=
      { Cabinet.initial with
        compartments := .tabulate fun c => { Compartment.initial c with door := (s.box c).door } }
    windows := .initial
    manifest := .initial
    clock := .cleared .initialised
    store := { valid := true, clearing := none, params := .initial } }

/-- R207: the 1.5 s have run; without INITIALISE STORE running nothing happens (DESIGN CHOICE, log entry 30). -/
def endClearing (s : State) : State :=
  match s.store.clearing with
  | none => s
  | some _ => endLong 0 .ok [] (raise .clockInvalid (withLowMarks (cleared s)))

/-- INITIALISE_STORE_COMPLETE (R207). -/
def execInitialiseStoreComplete (s : State) : Host.Outcome State Fault Refusal := .next (endClearing s)

/-! ## SET PARAMETER -/

/-- R208: the parameters of a link's role, as they stand. -/
def parameterRecord (l : LinkId) (s : State) : ResultRecord :=
  .parameters ((parametersOf l).map fun n => (n, s.store.params.read n))

/-- R208: every end of SET PARAMETER carries the parameters of the issuing link's role. -/
def withParameters (l : LinkId) (code : CompletionCode) (s : State) : Answer := .done code [parameterRecord l s] s

/-- R208: a parameter written; the low marks are tested after the space-low threshold (R99). -/
def writeParameter (n v : Nat) (s : State) : State :=
  let t := { s with store := { s.store with params := s.store.params.write n v } }
  if n = 10 then testLowMarks t else t

/-- R208. -/
def ownSetParameter (l : LinkId) (number value : Option Nat) (s : State) : Answer :=
  match number, value with
  | some n, some v =>
    if !parameterInRange n v then withParameters l .outOfRange s
    else if !s.store.valid then withParameters l .storeInvalid s
    else if n = 15 ∧ !s.clock.isValid then withParameters l .clockInvalid s
    else withParameters l .ok (writeParameter n v s)
  | _, _ => if !s.store.valid then withParameters l .storeInvalid s else withParameters l .ok s

/-- R192: SET PARAMETER is allowed to links 0 and 1, a parameter of 1 to 15 only to the role that sets it. -/
def parameterAllowed (l : LinkId) (number : Option Nat) : Bool :=
  Command.setParameter.allowed l && number.all fun n => n == 0 || decide (15 < n) || parameterLink n == l

/-- SET PARAMETER (R208): both fields or neither, one alone is MALFORMED. -/
def execSetParameter (l : LinkId) (tag : Nat) (number value : Option Nat) (s : State) :
    Host.Outcome State Fault Refusal :=
  .next <| takeCommand l tag .setParameter (parameterAllowed l number) (number.isSome == value.isSome)
    (ownSetParameter l number value) s

end Sys2Proof.Machine
end

