-- ==== Sys2Proof/Machine/Frames.lean ====
section
/-! DEFINITION. The receiver (R187) and the taking of a frame (R192): characters into frames, the check, the protocol
tests, and the command that a frame carries. -/

namespace Sys2Proof.Machine

/-- R192: a decoded command handed to its meaning. No frame carries an event. -/
def runCommand (i : Instr) (s : State) : Host.Outcome State Fault Refusal :=
  match i with
  | .collect l t => execCollect l t s
  | .discard l t => execDiscard l t s
  | .readRecord l t n => execReadRecord l t n s
  | .listRecords l t f => execListRecords l t f s
  | .readCompartment l t c => execReadCompartment l t c s
  | .readChute l t c => execReadChute l t c s
  | .readStation l t => execReadStation l t s
  | .readAdvice l t b v => execReadAdvice l t b v s
  | .readDepositor l t n => execReadDepositor l t n s
  | .readCounters l t n => execReadCounters l t n s
  | .clearLinkCounters l t => execClearLinkCounters l t s
  | .readNotices l t => execReadNotices l t s
  | .noticeEnable l t k => execNoticeEnable l t k s
  | .reportProgram l t m n k => execReportProgram l t m n k s
  | .reportStop l t => execReportStop l t s
  | .setForcedError l t n => execSetForcedError l t n s
  | .setClock l t a b => execSetClock l t a b s
  | .safeState l t v => execSafeState l t v s
  | .retain l t r => execRetain l t r s
  | .relinquish l t r => execRelinquish l t r s
  | .setWindow l t k n f => execSetWindow l t k n f s
  | .initialiseStore l t => execInitialiseStore l t s
  | .setParameter l t n v => execSetParameter l t n v s
  | .cosign l t r => execCosign l t r s
  | .claim l t r => execClaim l t r s
  | .yieldResource l t r => execYieldResource l t r s
  | .handOut l t c n => execHandOut l t c n s
  | .openDoor l t c => execOpenDoor l t c s
  | .inventory l t c => execInventory l t c s
  | .loadAdvice l t e => execLoadAdvice l t e s
  | .cancelAdvice l t g => execCancelAdvice l t g s
  | .setDepositor l t n f => execSetDepositor l t n f s
  | .removeDepositor l t n => execRemoveDepositor l t n s
  | .setCompartment l t c k v => execSetCompartment l t c k v s
  | .setReserve l t k n => execSetReserve l t k n s
  | .setRule l t n f => execSetRule l t n f s
  | .intakeMask l t c => execIntakeMask l t c s
  | .intakeUnmask l t c => execIntakeUnmask l t c s
  | .intakeCloseAll l t => execIntakeCloseAll l t s
  | .intakeOpenAll l t => execIntakeOpenAll l t s
  | .clearReason l t n r => execClearReason l t n r s
  | .voidRecord l t n => execVoidRecord l t n s
  | .purge l t d => execPurge l t d s
  | .reEnter l t n => execReEnter l t n s
  | .clearStation l t => execClearStation l t s
  | .clearChute l t c => execClearChute l t c s
  | .countResult l t n a b => execCountResult l t n a b s
  | .manifestOpen l t => execManifestOpen l t s
  | .manifestAdd l t n => execManifestAdd l t n s
  | .manifestDrop l t n => execManifestDrop l t n s
  | .manifestClose l t => execManifestClose l t s
  | .manifestAbandon l t => execManifestAbandon l t s
  | _ => .next s

/-- R192 to R194: a frame that is no command of Table 35, refused by the phase. -/
def takeUnknown (l : LinkId) (tag code : Nat) (s : State) : State :=
  modifyLink l
    (fun k =>
      let k := k.receivedWhole
      match k.phase with
      | .executing => k.refusedWith tag .executing code
      | .result => k.refusedWith tag .resultWaiting code
      | .ready => k.refusedWith tag .unknown code) s

/-- R192: the command a link's role allows a frame's body to give; for SET PARAMETER the parameter named counts. -/
def bodyAllowed (c : Command) (l : LinkId) (body : List Byte) : Bool :=
  if c = .setParameter then parameterAllowed l (namedParameter body) else c.allowed l

/-- R192: a command whose body does not hold its fields. -/
def takeMalformed (l : LinkId) (tag : Nat) (c : Command) (body : List Byte) (s : State) : State :=
  if c = .collect ∨ c = .discard then takeResultMalformed l tag c s
  else takeCommand l tag c (bodyAllowed c l body) false (declined .ok) s

/-- R192: a frame received whole with a good check. -/
def takeFrame (l : LinkId) (kind tag code : Nat) (body : List Byte) (s : State) :
    Host.Outcome State Fault Refusal :=
  match (if kind = 1 then commandOfCode code else none) with
  | none => .next (takeUnknown l tag code s)
  | some c =>
    match decodeBody c l tag body with
    | .command i => runCommand i s
    | .intakeUnknown => .next (takeUnknownIntake l tag s)
    | .malformed => .next (takeMalformed l tag c body s)

/-- R187, R198: a frame discarded for its check or its body length. -/
def Link.checkFailed (k : Link) : Link :=
  { k with
    receiver := .hunting
    counters := { k.counters with checkErrors := satInc Config.maxLineCount k.counters.checkErrors } }

/-- The bytes of a frame after its start mark: length, kind, tag, code, body and check (Table 31). -/
def frameLength (len : Byte) : Nat := 6 + 2 * len.toNat

/-- R187: a frame whose last check byte has arrived, as the bytes after its start mark. -/
def completeFrame (l : LinkId) (taken : List Byte) (s : State) : Host.Outcome State Fault Refusal :=
  let covered := (taken.drop 1).take (taken.length - 3)
  if bytesOf 2 (crc16 covered).toNat = taken.drop (taken.length - 2) then
    match covered with
    | kind :: tag :: code :: body => takeFrame l kind.toNat tag.toNat code.toNat body s
    | _ => .next s
  else .next (modifyLink l Link.checkFailed s)

/-- The receiver set. -/
def setReceiver (l : LinkId) (r : Receiver) (s : State) : State :=
  modifyLink l (fun k => { k with receiver := r }) s

/-- R187: one character taken IN_FRAME, `taken` being those before it. -/
def takeInFrame (l : LinkId) (taken : List Byte) (b : Byte) (s : State) : Host.Outcome State Fault Refusal :=
  match taken with
  | [] =>
    if 240 < b.toNat then .next (modifyLink l Link.checkFailed s) else .next (setReceiver l (.inFrame [b]) s)
  | len :: _ =>
    if (taken ++ [b]).length = frameLength len then completeFrame l (taken ++ [b]) s
    else .next (setReceiver l (.inFrame (taken ++ [b])) s)

/-- R187: one character received; an ABSENT link and one in LINE_LOW receive none (R186, R197). -/
def takeCharacter (l : LinkId) (b : Byte) (s : State) : Host.Outcome State Fault Refusal :=
  if (s.link l).hears then
    match (s.link l).receiver with
    | .hunting => .next (if b = 0xA5#8 then setReceiver l (.inFrame []) s else s)
    | .inFrame taken => takeInFrame l taken b s
    | .lineLow => .next s
  else .next s

/-- R187: characters received one after another. -/
def takeCharacters (l : LinkId) : List Byte → State → Host.Outcome State Fault Refusal
  | [], s => .next s
  | b :: bs, s =>
    match takeCharacter l b s with
    | .next t => takeCharacters l bs t
    | o => o

/-- FRAME_RECEIVED (R192): the characters of one or more frames (log entry 6). -/
def execFrameReceived (link : LinkId) (chars : List Byte) (s : State) : Host.Outcome State Fault Refusal :=
  takeCharacters link chars s

end Sys2Proof.Machine
end

