-- ==== Sys2Proof/Machine/Dispatch.lean ====
section
/-! DEFINITION. One arm for each command, each a direct call of its meaning. -/

namespace Sys2Proof.Machine

def exec (i : Instr) (s : State) : Host.Outcome State Fault Refusal :=
  match i with
  | .powerUp battOk lines => Sys2Proof.Machine.execPowerUp battOk lines s
  | .resetN lines => Sys2Proof.Machine.execResetN lines s
  | .clockAdvance => Sys2Proof.Machine.execClockAdvance s
  | .credentialPresented chute credential => Sys2Proof.Machine.execCredentialPresented chute credential s
  | .drop chute => Sys2Proof.Machine.execDrop chute s
  | .endPressed chute => Sys2Proof.Machine.execEndPressed chute s
  | .throatEntryReport chute => Sys2Proof.Machine.execThroatEntryReport chute s
  | .jamReport chute => Sys2Proof.Machine.execJamReport chute s
  | .drumWindowExpiry chute => Sys2Proof.Machine.execDrumWindowExpiry chute s
  | .idleTimerExpiry chute => Sys2Proof.Machine.execIdleTimerExpiry chute s
  | .panelHoldExpiry chute => Sys2Proof.Machine.execPanelHoldExpiry chute s
  | .presenceReport => Sys2Proof.Machine.execPresenceReport s
  | .loadTimeout => Sys2Proof.Machine.execLoadTimeout s
  | .settleTimerExpiry scale => Sys2Proof.Machine.execSettleTimerExpiry scale s
  | .tagReadReport report => Sys2Proof.Machine.execTagReadReport report s
  | .tagReadAttemptTimeout => Sys2Proof.Machine.execTagReadAttemptTimeout s
  | .entryReport compartment tag => Sys2Proof.Machine.execEntryReport compartment tag s
  | .transitTimeout => Sys2Proof.Machine.execTransitTimeout s
  | .doorOpened compartment => Sys2Proof.Machine.execDoorOpened compartment s
  | .doorClosed compartment => Sys2Proof.Machine.execDoorClosed compartment s
  | .unlockWindowExpiry compartment => Sys2Proof.Machine.execUnlockWindowExpiry compartment s
  | .doorLeftOpenTimerExpiry compartment => Sys2Proof.Machine.execDoorLeftOpenTimerExpiry compartment s
  | .scanDone compartment tags => Sys2Proof.Machine.execScanDone compartment tags s
  | .cosignWindowExpiry bank => Sys2Proof.Machine.execCosignWindowExpiry bank s
  | .purgeWalkEnd => Sys2Proof.Machine.execPurgeWalkEnd s
  | .initialiseStoreComplete => Sys2Proof.Machine.execInitialiseStoreComplete s
  | .reportTimerExpiry link => Sys2Proof.Machine.execReportTimerExpiry link s
  | .frameReceived link chars => Sys2Proof.Machine.execFrameReceived link chars s
  | .frameSent link => Sys2Proof.Machine.execFrameSent link s
  | .lineBreak link => Sys2Proof.Machine.execLineBreak link s
  | .receiveLineRise link => Sys2Proof.Machine.execReceiveLineRise link s
  | .presentLineFall link => Sys2Proof.Machine.execPresentLineFall link s
  | .presentLineRise link => Sys2Proof.Machine.execPresentLineRise link s
  | .collect link tag => Sys2Proof.Machine.execCollect link tag s
  | .discard link tag => Sys2Proof.Machine.execDiscard link tag s
  | .readRecord link tag custody => Sys2Proof.Machine.execReadRecord link tag custody s
  | .listRecords link tag criteria => Sys2Proof.Machine.execListRecords link tag criteria s
  | .readCompartment link tag compartment => Sys2Proof.Machine.execReadCompartment link tag compartment s
  | .readChute link tag chute => Sys2Proof.Machine.execReadChute link tag chute s
  | .readStation link tag => Sys2Proof.Machine.execReadStation link tag s
  | .readAdvice link tag byTag value => Sys2Proof.Machine.execReadAdvice link tag byTag value s
  | .readDepositor link tag index => Sys2Proof.Machine.execReadDepositor link tag index s
  | .readCounters link tag number => Sys2Proof.Machine.execReadCounters link tag number s
  | .clearLinkCounters link tag => Sys2Proof.Machine.execClearLinkCounters link tag s
  | .readNotices link tag => Sys2Proof.Machine.execReadNotices link tag s
  | .noticeEnable link tag kinds => Sys2Proof.Machine.execNoticeEnable link tag kinds s
  | .reportProgram link tag mode n sources => Sys2Proof.Machine.execReportProgram link tag mode n sources s
  | .reportStop link tag => Sys2Proof.Machine.execReportStop link tag s
  | .setForcedError link tag n => Sys2Proof.Machine.execSetForcedError link tag n s
  | .setClock link tag seconds date => Sys2Proof.Machine.execSetClock link tag seconds date s
  | .safeState link tag value => Sys2Proof.Machine.execSafeState link tag value s
  | .retain link tag resource => Sys2Proof.Machine.execRetain link tag resource s
  | .relinquish link tag resource => Sys2Proof.Machine.execRelinquish link tag resource s
  | .setWindow link tag kind number fields => Sys2Proof.Machine.execSetWindow link tag kind number fields s
  | .initialiseStore link tag => Sys2Proof.Machine.execInitialiseStore link tag s
  | .setParameter link tag number value => Sys2Proof.Machine.execSetParameter link tag number value s
  | .cosign link tag resource => Sys2Proof.Machine.execCosign link tag resource s
  | .claim link tag resource => Sys2Proof.Machine.execClaim link tag resource s
  | .yieldResource link tag resource => Sys2Proof.Machine.execYieldResource link tag resource s
  | .handOut link tag compartment custody => Sys2Proof.Machine.execHandOut link tag compartment custody s
  | .openDoor link tag compartment => Sys2Proof.Machine.execOpenDoor link tag compartment s
  | .inventory link tag compartment => Sys2Proof.Machine.execInventory link tag compartment s
  | .loadAdvice link tag entries => Sys2Proof.Machine.execLoadAdvice link tag entries s
  | .cancelAdvice link tag bagTag => Sys2Proof.Machine.execCancelAdvice link tag bagTag s
  | .setDepositor link tag index fields => Sys2Proof.Machine.execSetDepositor link tag index fields s
  | .removeDepositor link tag index => Sys2Proof.Machine.execRemoveDepositor link tag index s
  | .setCompartment link tag compartment cls service => Sys2Proof.Machine.execSetCompartment link tag compartment cls service s
  | .setReserve link tag cls count => Sys2Proof.Machine.execSetReserve link tag cls count s
  | .setRule link tag number fields => Sys2Proof.Machine.execSetRule link tag number fields s
  | .intakeMask link tag chute => Sys2Proof.Machine.execIntakeMask link tag chute s
  | .intakeUnmask link tag chute => Sys2Proof.Machine.execIntakeUnmask link tag chute s
  | .intakeCloseAll link tag => Sys2Proof.Machine.execIntakeCloseAll link tag s
  | .intakeOpenAll link tag => Sys2Proof.Machine.execIntakeOpenAll link tag s
  | .clearReason link tag custody reason => Sys2Proof.Machine.execClearReason link tag custody reason s
  | .voidRecord link tag custody => Sys2Proof.Machine.execVoidRecord link tag custody s
  | .purge link tag date => Sys2Proof.Machine.execPurge link tag date s
  | .reEnter link tag custody => Sys2Proof.Machine.execReEnter link tag custody s
  | .clearStation link tag => Sys2Proof.Machine.execClearStation link tag s
  | .clearChute link tag chute => Sys2Proof.Machine.execClearChute link tag chute s
  | .countResult link tag custody notes coins => Sys2Proof.Machine.execCountResult link tag custody notes coins s
  | .manifestOpen link tag => Sys2Proof.Machine.execManifestOpen link tag s
  | .manifestAdd link tag custody => Sys2Proof.Machine.execManifestAdd link tag custody s
  | .manifestDrop link tag custody => Sys2Proof.Machine.execManifestDrop link tag custody s
  | .manifestClose link tag => Sys2Proof.Machine.execManifestClose link tag s
  | .manifestAbandon link tag => Sys2Proof.Machine.execManifestAbandon link tag s
  | .receivedCharacterFault link fault => Sys2Proof.Machine.execReceivedCharacterFault link fault s

end Sys2Proof.Machine
end

