-- ==== Sys2Proof/Machine/Tick.lean ====
section
/-! DEFINITION. One idle tick of 1 ms: every running timer counts down, staying at 0 until its expiry is taken, and
the purge walk visits its next record (log entries 4 and 5). -/

namespace Sys2Proof.Machine

/-- The timers of a chute (R46, R50). -/
def Chute.ticked (c : Chute) : Chute :=
  { c with
    state :=
      match c.state with
      | .session d ms => .session d (ms - 1)
      | .drum d ms p => .drum d (ms - 1) p
      | .idle => .idle
      | .fault => .fault
    hold := c.hold.map fun h => (h.1, h.2 - 1) }

/-- The settle timer (R77). -/
def Settle.ticked : Settle → Settle
  | .running ms => .running (ms - 1)
  | .latched w => .latched w

/-- The read attempt's time (R78). -/
def Reads.ticked : Reads → Reads
  | .attempt ms => .attempt (ms - 1)
  | .done r => .done r

/-- The timers of the station and the transit (R70, R77, R78, R106). -/
def StationState.ticked : StationState → StationState
  | .loading n src ms => .loading n src (ms - 1)
  | .measuring n src m => .measuring n src { m with settle := m.settle.ticked, reads := m.reads.ticked }
  | .placing n src c ms => .placing n src c (ms - 1)
  | .idle => .idle
  | .blocked n src => .blocked n src
  | .fault => .fault

/-- The timers of a door machine (Table 25). -/
def Door.ticked : Door → Door
  | .scanning op ms => .scanning op (ms - 1)
  | .unlocked op ms => .unlocked op (ms - 1)
  | .opened f op ms => .opened f op (ms.map (· - 1))
  | .locked => .locked

/-- A cosign window (R116). -/
def Holder.ticked : Holder → Holder
  | .cosignWait l ms => .cosignWait l (ms - 1)
  | .retained => .retained
  | .free => .free
  | .held h k => .held h k

/-- A report timer (R204). -/
def Cadence.ticked : Cadence → Cadence
  | .seconds n ms => .seconds n (ms - 1)
  | .bags n c => .bags n c

/-- A link's report program (R204, R205). -/
def Link.ticked (k : Link) : Link :=
  { k with program := k.program.map fun p => { p with cadence := p.cadence.ticked } }

/-- Every running timer one ms on. -/
def timersOn (s : State) : State :=
  { s with
    chutes := s.chutes.map Chute.ticked
    station := { s.station with state := s.station.state.ticked }
    cabinet :=
      { s.cabinet with compartments := s.cabinet.compartments.map fun b => { b with door := b.door.ticked } }
    claims := { s.claims with resources := s.claims.resources.map Holder.ticked }
    store := { s.store with clearing := s.store.clearing.map (· - 1) }
    links := s.links.map Link.ticked }

/-- One idle tick. -/
def tick (s : State) : State := walkOn (timersOn s)

end Sys2Proof.Machine
end

