-- ==== Sys2Proof/Safety.lean ====
section
/-! DEFINITION. What the manual says holds in every state the part can reach: dual control over the banks and the
doors, the phases of the links, the capacity of the register, and the issue of custody numbers; and the words in
which the statements of Certificates/Slice0 speak of links and their frames. -/

namespace Sys2Proof.Machine

/-- R117: a bank is FREE, COSIGN_WAIT or HELD only while the safe state is OPEN. -/
def BanksNeedOpenSafe (s : State) : Prop :=
  ∀ b : Fin 4, s.claims.resources.get (bankResource b) ≠ .retained → s.claims.safe = .opened

/-- R116, R121: STATION and the hatches never wait for a cosign. -/
def OnlyBanksWait (s : State) : Prop :=
  ∀ (r : Fin 9) (l : LinkId) (ms : Nat), s.claims.resources.get r = .cosignWait l ms → r.val < 4

/-- R116: the cosigner is present for a bank in HELD and absent for STATION and the hatches. -/
def CosignersOfBanks (s : State) : Prop :=
  ∀ (r : Fin 9) (l : LinkId) (k : Option LinkId), s.claims.resources.get r = .held l k →
    (k.isSome = true ↔ r.val < 4)

/-- R122: a cosigner is another link than the holder. -/
def CosignersAreOthers (s : State) : Prop :=
  ∀ (r : Fin 9) (l k : LinkId), s.claims.resources.get r = .held l (some k) → k ≠ l

/-- R139: a door is UNLOCKED only for an OPEN or HAND OUT of a link that holds the bank, the safe state OPEN. -/
def UnlockedUnderHold (s : State) : Prop :=
  ∀ (c : CompartmentId) (op : DoorOp) (ms : Nat), (s.cabinet.compartments.get c).door = .unlocked op ms →
    s.claims.safe = .opened ∧
      ∃ l w d k, op = .command l w d ∧ w ≠ .inventory ∧
        s.claims.resources.get (bankResource (bankOf c)) = .held l k

/-- Dual control: R116, R117, R122 and R139 together. -/
def DualControl (s : State) : Prop :=
  BanksNeedOpenSafe s ∧ OnlyBanksWait s ∧ CosignersOfBanks s ∧ CosignersAreOthers s ∧ UnlockedUnderHold s

/-- R185: what a link holds in each phase. -/
def Link.PhaseHolds (k : Link) : Prop :=
  match k.phase with
  | .ready => k.held = [] ∧ ∀ c, k.long = some c → c.delivery = .discard
  | .executing => k.held = [] ∧ ∃ c, k.long = some c ∧ c.delivery = .deliver
  | .result => k.held ≠ [] ∧ ∀ c, k.long = some c → c.delivery = .discard

/-- R185 for the four links. -/
def LinkPhases (s : State) : Prop := ∀ l : LinkId, (s.links.get l).PhaseHolds

/-- R10, R46: one reservation for each chute in DRUM, and never more than 320 records and reservations. -/
def CapacityKept (s : State) : Prop :=
  s.register.reservations = s.chutes.cells.countP Chute.inDrum ∧
    s.register.records.length + s.register.reservations ≤ 320

/-- R163, Table 27: the counter is 1 to 9,999, and the open manifest holds at most 24 entries, none repeated. -/
def ManifestKept (s : State) : Prop :=
  (1 ≤ s.manifest.counter ∧ s.manifest.counter ≤ 9999) ∧
    ∀ m, s.manifest.current = some m → m.entries.length ≤ 24 ∧ m.entries.Nodup ∧ 1 ≤ m.number ∧ m.number ≤ 9999

/-- R9: the counter and every custody number held are 1 to 65,535, and no more than 320 records are held. -/
def NumbersInRange (r : Register) : Prop :=
  (1 ≤ r.nextNumber ∧ r.nextNumber ≤ 65535) ∧ (∀ x ∈ r.records, 1 ≤ x.number ∧ x.number ≤ 65535) ∧
    r.records.length ≤ 320

/-- R1, R20: the register lists its records in ascending custody-number order. -/
def InNumberOrder (r : Register) : Prop := (r.records.map Record.number).Pairwise (· < ·)

/-- Table 28, Table 41: the clock's reading and the cutoff are in range. -/
def ClockInRange (s : State) : Prop :=
  s.clock.seconds ≤ 86399 ∧ s.clock.date ≤ 65535 ∧ s.store.params.cutoff ≤ 86399

/-! ## The words of the statements -/

/-- A link that takes a frame: PRESENT and its line not held low. -/
def TakesFrames (s : State) (l : LinkId) : Prop :=
  (s.links.get l).present = true ∧ (s.links.get l).receiver ≠ .lineLow

/-- A link in READY that takes a frame. -/
def ReadyLink (s : State) (l : LinkId) : Prop := TakesFrames s l ∧ (s.links.get l).phase = .ready

/-- One link's fields replaced, and nothing else. -/
def withLink (l : LinkId) (k : Link) (s : State) : State := { s with links := s.links.set l k }

/-- The line counters after one more frame received whole (R198). -/
def LineCounters.received (c : LineCounters) : LineCounters :=
  { c with framesReceived := satInc Config.maxLineCount c.framesReceived }

/-- R192: the link's frame received (log entry 2), its command completed with result records, its DONE queued; nothing
else. -/
def doneAt (l : LinkId) (tag : Nat) (code : CompletionCode) (results : List ResultRecord) (s : State) : State :=
  let k := s.links.get l
  withLink l
    { k with
      receiver := .hunting
      counters := k.counters.received
      held := results
      phase := if results = [] then .ready else .result
      queue := k.queue ++ [.done tag code results.length false] } s

/-- R192: the link's frame received (log entry 2) and its long command accepted; nothing else. -/
def executingAt (l : LinkId) (tag : Nat) (c : Command) (s : State) : State :=
  let k := s.links.get l
  withLink l
    { k with
      receiver := .hunting
      counters := k.counters.received
      phase := .executing
      long := some ⟨c, tag, .deliver⟩ } s

/-- R192, R195: the link's frame received (log entry 2) and answered by a REFUSAL; nothing else. -/
def refusedAt (l : LinkId) (tag : Nat) (code : RefusalCode) (c : Command) (s : State) : State :=
  let k := s.links.get l
  withLink l
    { k with
      receiver := .hunting
      counters := { k.counters.received with refusals := satInc Config.maxLineCount k.counters.refusals }
      queue := replaceOrAppend Frame.isRefusal (.refusal tag code c.code k.phase) k.queue } s

/-- The link, the frame's tag and the command of a command row; absent for an event. -/
def commandOf : Instr → Option (LinkId × Nat × Command)
  | .collect l t => some (l, t, .collect)
  | .discard l t => some (l, t, .discard)
  | .readRecord l t _ => some (l, t, .readRecord)
  | .listRecords l t _ => some (l, t, .listRecords)
  | .readCompartment l t _ => some (l, t, .readCompartment)
  | .readChute l t _ => some (l, t, .readChute)
  | .readStation l t => some (l, t, .readStation)
  | .readAdvice l t _ _ => some (l, t, .readAdvice)
  | .readDepositor l t _ => some (l, t, .readDepositor)
  | .readCounters l t _ => some (l, t, .readCounters)
  | .clearLinkCounters l t => some (l, t, .clearLinkCounters)
  | .readNotices l t => some (l, t, .readNotices)
  | .noticeEnable l t _ => some (l, t, .noticeEnable)
  | .reportProgram l t _ _ _ => some (l, t, .reportProgram)
  | .reportStop l t => some (l, t, .reportStop)
  | .setForcedError l t _ => some (l, t, .setForcedError)
  | .setClock l t _ _ => some (l, t, .setClock)
  | .safeState l t _ => some (l, t, .safeState)
  | .retain l t _ => some (l, t, .retain)
  | .relinquish l t _ => some (l, t, .relinquish)
  | .setWindow l t _ _ _ => some (l, t, .setWindow)
  | .initialiseStore l t => some (l, t, .initialiseStore)
  | .setParameter l t _ _ => some (l, t, .setParameter)
  | .cosign l t _ => some (l, t, .cosign)
  | .claim l t _ => some (l, t, .claim)
  | .yieldResource l t _ => some (l, t, .yieldResource)
  | .handOut l t _ _ => some (l, t, .handOut)
  | .openDoor l t _ => some (l, t, .openDoor)
  | .inventory l t _ => some (l, t, .inventory)
  | .loadAdvice l t _ => some (l, t, .loadAdvice)
  | .cancelAdvice l t _ => some (l, t, .cancelAdvice)
  | .setDepositor l t _ _ => some (l, t, .setDepositor)
  | .removeDepositor l t _ => some (l, t, .removeDepositor)
  | .setCompartment l t _ _ _ => some (l, t, .setCompartment)
  | .setReserve l t _ _ => some (l, t, .setReserve)
  | .setRule l t _ _ => some (l, t, .setRule)
  | .intakeMask l t _ => some (l, t, .intake)
  | .intakeUnmask l t _ => some (l, t, .intake)
  | .intakeCloseAll l t => some (l, t, .intake)
  | .intakeOpenAll l t => some (l, t, .intake)
  | .clearReason l t _ _ => some (l, t, .clearReason)
  | .voidRecord l t _ => some (l, t, .voidRecord)
  | .purge l t _ => some (l, t, .purge)
  | .reEnter l t _ => some (l, t, .reEnter)
  | .clearStation l t => some (l, t, .clearStation)
  | .clearChute l t _ => some (l, t, .clearChute)
  | .countResult l t _ _ _ => some (l, t, .countResult)
  | .manifestOpen l t => some (l, t, .manifestOpen)
  | .manifestAdd l t _ => some (l, t, .manifestAdd)
  | .manifestDrop l t _ => some (l, t, .manifestDrop)
  | .manifestClose l t => some (l, t, .manifestClose)
  | .manifestAbandon l t => some (l, t, .manifestAbandon)
  | _ => none

/-- R187, Table 31: the bytes of a COMMAND frame with a good check. -/
def commandFrame (c : Command) (tag : Byte) (body : List Byte) : List Byte :=
  let covered := 0x01#8 :: tag :: BitVec.ofNat 8 c.code :: body
  0xA5#8 :: BitVec.ofNat 8 (body.length / 2) :: covered ++ bytesOf 2 (crc16 covered).toNat

/-- The record that the register holds under a custody number. -/
def RecordAt (s : State) (n : Nat) (r : Record) : Prop :=
  s.register.records.find? (fun x => x.number == n) = some r

/-- The door of a compartment whose entry reader reports: a running scan begins its 2 s again (R150). -/
def Door.rescanned : Door → Door
  | .scanning op _ => .scanning op 2000
  | d => d

/-- One more, and 65,535 once there (R21). -/
def upTo65535 (n : Nat) : Nat := if n < 65535 then n + 1 else n

/-- The state the arbiter and the cabinet read at an entry report: the reporting compartment's scan restarted. -/
def entryBase (c : CompartmentId) (s : State) : State := modifyBox c (fun b => { b with door := b.door.rescanned }) s

/-- R205: a link after a bag became STORED at its expected compartment: a BAGS program counts it, and at n the count
returns to 0 and a PRESENT link queues a REPORT with the next number and a copy of every listed source. -/
def Link.bagCounted (copy : Nat → List Byte) (k : Link) : Link :=
  match k.program with
  | some ⟨.bags n count, sources, produced⟩ =>
    if count + 1 < n then { k with program := some ⟨.bags n (count + 1), sources, produced⟩ }
    else if k.present then
      { k with
        program := some ⟨.bags n 0, sources, (produced + 1) % 65536⟩
        queue := replaceOrAppend Frame.isReport
          (.report ((produced + 1) % 65536) (sources.map fun x => (x, copy x))) k.queue }
    else { k with program := some ⟨.bags n 0, sources, produced⟩ }
  | _ => k

/-- R144: the link whose operation is abandoned at a compartment: its door is UNLOCKED for that link, and `lost` says
that the compartment's bank leaves HELD by it. -/
def abandonedAt (lost : CompartmentId → LinkId → Bool) (s : State) (c : CompartmentId) : Option LinkId :=
  match (s.cabinet.compartments.get c).door with
  | .unlocked (.command l _ _) _ => if lost c l then some l else none
  | _ => none

/-- R144, R193: a link whose long command ends ABANDONED: its DONE under DELIVER, nothing under DISCARD. -/
def Link.abandoned (k : Link) : Link :=
  match k.long with
  | some ⟨_, tag, .deliver⟩ =>
    { k with long := none, held := [], phase := .ready, queue := k.queue ++ [.done tag .abandoned 0 false] }
  | some ⟨_, _, .discard⟩ => { k with long := none }
  | none => k

/-- R144: the doors of the abandoned operations LOCKED and the operations ended; every other door and link kept. -/
def relocked (lost : CompartmentId → LinkId → Bool) (s : State) : State :=
  { s with
    cabinet :=
      { s.cabinet with
        compartments := .tabulate fun c =>
          let b := s.cabinet.compartments.get c
          if abandonedAt lost s c = none then b else { b with door := .locked } }
    links := .tabulate fun l =>
      let k := s.links.get l
      if ∃ c, abandonedAt lost s c = some l then k.abandoned else k }

/-- R107, R144: the relocking, and where a door was relocked one retry of a blocked allocation. -/
def relockedOnce (lost : CompartmentId → LinkId → Bool) (s : State) : State :=
  if ∃ c, abandonedAt lost s c ≠ none then testLowMarks (retry (relocked lost s)) else s

/-! ## The words of an evaluation

`s` is the state that the evaluation reads, `r` the record as it stands in it, `w` the latched weight, `res` the read
result, and `r'` the record as the evaluation leaves it. -/

/-- R80: another non-terminal record than number `n` carries the tag. -/
def CarriedElsewhere (s : State) (n g : Nat) : Prop :=
  ∃ x ∈ s.register.records, x.number ≠ n ∧ x.state ≠ .counted ∧ x.state ≠ .dispatched ∧ x.state ≠ .void ∧ x.tag = some g

/-- R80, R83: the tag read is looked up: no other record carries it, and the record has no tag yet, or has this one and
no advice. -/
def LooksUp (s : State) (r : Record) (res : ReadResult) : Prop :=
  ∃ g broken, res = .tag g broken ∧ ¬ CarriedElsewhere s r.number g ∧
    (r.tag = none ∨ r.tag = some g ∧ r.advice = none)

/-- R27, R80: the advice entry that carries the tag read. -/
def entryRead (s : State) (res : ReadResult) : Option Advice :=
  match res with
  | .tag g _ => s.advices.entries.find? fun a => a.tag == g
  | .failed => none

/-- R80, R83: the tag tests: the tag and the tamper written, an OPEN entry found matched to the record, an advice kept
or left absent, and the reasons UNREADABLE, DUPLICATE, UNADVISED and TAG_CHANGED. -/
def TagsTested (s : State) (r : Record) (res : ReadResult) (r' : Record) (table : AdviceTable) : Prop :=
  let opened (a : Advice) : Prop := LooksUp s r res ∧ entryRead s res = some a ∧ a.matched = none
  r'.tag = (match res with | .tag g _ => some g | .failed => r.tag) ∧
  r'.tamper = some (match res with | .tag _ broken => if broken then .broken else .intact | .failed => .unread) ∧
  (∀ a, opened a →
    r'.advice = some a.index ∧
    table =
      { s.advices with
        entries := s.advices.entries.map fun x =>
          if x.index = a.index then { x with matched := some r.number } else x }) ∧
  ((∀ a, ¬ opened a) →
    table = s.advices ∧
    (LooksUp s r res ∨ r.tag = none ∧ res ≠ .failed → r'.advice = none) ∧
    (¬ LooksUp s r res → r.tag ≠ none ∨ res = .failed → r'.advice = r.advice)) ∧
  (hasReason r'.reasons .unreadable = true ↔ res = .failed) ∧
  (hasReason r'.reasons .duplicate = true ↔
    (∃ g, r'.tag = some g ∧ CarriedElsewhere s r.number g) ∨
    LooksUp s r res ∧ ∃ a, entryRead s res = some a ∧ a.matched ≠ none) ∧
  (hasReason r'.reasons .unadvised = true ↔ LooksUp s r res ∧ entryRead s res = none) ∧
  (hasReason r'.reasons .tagChanged = true ↔ ∃ old g broken, r.tag = some old ∧ res = .tag g broken ∧ g ≠ old)

/-- R81, R82: the checks against the advice `a` of the record and the two made for every record, with the weight, the
bag kind and the handling written. -/
def AdviceChecked (s : State) (r : Record) (w : Nat) (a : Option Advice) (r' : Record) : Prop :=
  let p := s.store.params
  r'.weight = some w ∧
  r'.kind = some ((a.map Advice.kind).getD (if p.coinThreshold ≤ w then .coin else .note)) ∧
  r'.handling = a.map Advice.handling ∧
  (hasReason r'.reasons .stale = true ↔
    ∃ x, a = some x ∧ x.date ≠ r.arrivalDate ∧ x.date + 1 ≠ r.arrivalDate) ∧
  (hasReason r'.reasons .wrongDepositor = true ↔ ∃ x, a = some x ∧ x.depositor ≠ r.depositor) ∧
  (hasReason r'.reasons .weight = true ↔
    w = 30000 ∨ ∃ x d, a = some x ∧ x.weight = some d ∧ (d + p.weightTolerance < w ∨ w + p.weightTolerance < d)) ∧
  (hasReason r'.reasons .tamper = true ↔ r'.tamper = some .broken)

/-- Table 18: the quantity of a rule, absent where the record has no advice that gives it; a depositor's empty
slot, which no run finds here, gives 0 (log entry 18). -/
def quantityOf (s : State) (r : Record) (w : Nat) (a : Option Advice) : Quantity → Option Int
  | .weight => some (w : Int)
  | .weightDeviation => a.bind fun x => x.weight.map fun d => (w : Int) - d
  | .declaredValue => a.map fun x => (x.notes : Int) + x.coins
  | .arrivalTime => some (r.arrivalSeconds : Int)
  | .depositorBags =>
    match s.roster.get r.depositor with
    | some d => some (d.arrivals : Int)
    | none => some 0
  | .adviceLag => a.map fun x => (r.arrivalDate : Int) - x.date

/-- R84: the relation a condition names; OFF is none. -/
def Related (c : Condition) (v reference : Int) : Prop :=
  match c with
  | .eq => v = reference
  | .ne => v ≠ reference
  | .gt => v > reference
  | .ge => v ≥ reference
  | .lt => v < reference
  | .le => v ≤ reference
  | .off => False

/-- R84: each check rule tested: a mark of the rule's action where its quantity is available and stands in its relation,
and RULE exactly where a hold mark was given. -/
def RulesTested (s : State) (r : Record) (w : Nat) (a : Option Advice) (r' : Record) : Prop :=
  (∀ (i : Fin 8) (action : RuleAction), r'.marks.get i = some action ↔
    let k := s.station.rules.get i
    k.action = action ∧ ∃ v, quantityOf s r w a k.quantity = some v ∧ Related k.condition v k.reference) ∧
  (hasReason r'.reasons .rule = true ↔ ∃ i, r'.marks.get i = some .hold)

/-- R80 to R84: a record evaluated: every reason but NO_SPACE, which the allocation gives, every field that an
evaluation writes, and the fields it keeps. -/
def EvaluatedAs (s : State) (r : Record) (w : Nat) (res : ReadResult) (r' : Record) (table : AdviceTable) : Prop :=
  let a := r'.advice.bind fun i => s.advices.entries.find? fun x => x.index == i
  TagsTested s r res r' table ∧ AdviceChecked s r w a r' ∧ RulesTested s r w a r' ∧
  hasReason r'.reasons .misrouted = false ∧ hasReason r'.reasons .recovered = false ∧
  r' = { r with tag := r'.tag, tamper := r'.tamper, weight := r'.weight, advice := r'.advice, kind := r'.kind,
                handling := r'.handling, marks := r'.marks, reasons := r'.reasons, state := r'.state,
                compartment := r'.compartment }

/-- R94, R103: a compartment that can take a bag of the kind while no placement is pending. -/
def HasRoom (s : State) (kind : BagKind) (c : CompartmentId) : Prop :=
  let b := s.cabinet.compartments.get c
  b.inService = true ∧ b.door = .locked ∧
    match kind with
    | .note => b.cls = .standard ∧ b.occupants.length < 4
    | .coin => b.cls = .coin ∧ b.occupants.length < 2

/-- R98: a reserved compartment: fewer compartments of its class than the class's reserve count stand above it. -/
def Reserved (s : State) (c : CompartmentId) : Prop :=
  let cls := (s.cabinet.compartments.get c).cls
  (List.finRange 48).countP (fun d => decide (c < d ∧ (s.cabinet.compartments.get d).cls = cls)) <
    match cls with
    | .standard => s.cabinet.reserveStandard
    | .coin => s.cabinet.reserveCoin

/-- The lowest-numbered compartment with a property. -/
def Lowest (p : CompartmentId → Prop) (c : CompartmentId) : Prop := p c ∧ ∀ d, d < c → ¬ p d

/-- R104: what the first step of the accepted pass looks for: an unreserved compartment whose attribute equals the
bag's handling. -/
def Matching (s : State) (kind : BagKind) (handling : Option Handling) (c : CompartmentId) : Prop :=
  HasRoom s kind c ∧ ¬ Reserved s c ∧ handling ≠ none ∧ (s.cabinet.compartments.get c).handling = handling

/-- R104: what the second step of the accepted pass looks for: an unreserved empty compartment whose attribute is
unset. -/
def Fresh (s : State) (kind : BagKind) (c : CompartmentId) : Prop :=
  let b := s.cabinet.compartments.get c
  HasRoom s kind c ∧ ¬ Reserved s c ∧ b.occupants = [] ∧ b.handling = none

/-- R104: the compartment that the accepted pass chooses. -/
def AcceptedPass (s : State) (kind : BagKind) (handling : Option Handling) (c : CompartmentId) : Prop :=
  Lowest (Matching s kind handling) c ∨ (∀ d, ¬ Matching s kind handling d) ∧ Lowest (Fresh s kind) c

/-- R105: the compartment that the held pass chooses. -/
def HeldPass (s : State) (kind : BagKind) (c : CompartmentId) : Prop :=
  Lowest (fun d => HasRoom s kind d ∧ Reserved s d) c ∨
    (∀ d, ¬ (HasRoom s kind d ∧ Reserved s d)) ∧ Lowest (HasRoom s kind) c

/-- R86, R104 to R106: the answer to the request for a place of an evaluated record: granted by the accepted pass, for
a record without reasons; by the held pass, with NO_SPACE where the record had no reasons; or no place. -/
def PlacedAs (s : State) (n : Nat) (src : Source) (r r' : Record) (t : State) : Prop :=
  let kind := r'.kind.getD .note
  let clean := ∀ x : Reason, x ≠ .noSpace → hasReason r'.reasons x = false
  let granted (c : CompartmentId) : Prop :=
    t.station.state = .placing n src c (s.store.params.transitTimeout * 1000) ∧ r'.state = .routing ∧
      r'.compartment = some c
  (∃ c, clean ∧ AcceptedPass s kind r'.handling c ∧ granted c ∧ hasReason r'.reasons .noSpace = false) ∨
  (∃ c, ((clean ∧ ∀ d, ¬ AcceptedPass s kind r'.handling d) ∧ hasReason r'.reasons .noSpace = true ∨
      ¬ clean ∧ hasReason r'.reasons .noSpace = false) ∧ HeldPass s kind c ∧ granted c) ∨
  (∀ c, ¬ HasRoom s kind c) ∧ hasReason r'.reasons .noSpace = false ∧ t.station.state = .blocked n src ∧
    r'.state = r.state ∧ r'.compartment = r.compartment

end Sys2Proof.Machine
end

