-- ==== Sys2Proof/Certificates/Slice0/Obligations.lean ====
section
/-! DEFINITION. The statements for the provers, in the words of Safety.lean. -/

open Sys2Proof Sys2Proof.Machine

/-! ## The machine and its links -/

/-- Log entry 24 and the task's own wording: a step runs the command at the front of the queue. -/
def Obligations.StepRunsFrontCommand : Prop :=
  ∀ (c : Instr) (rest : List Instr) (s : State),
    step { s with pending := c :: rest } = exec c { s with pending := rest }

/-- Log entry 4 (DESIGN CHOICE): on an empty queue the part idles for 1 ms. Every timer that runs is 1 ms lower, 0
staying 0. While a purge walk runs it visits the record with the lowest custody number it has not passed, and removes it
with the advice entry it names where it is COUNTED, DISPATCHED or VOID and arrived by the walk's date (R17, R35); with
no such record left it waits for its end. Nothing else changes. -/
def Obligations.EmptyQueueIsOneTick : Prop :=
  ∀ s : State, s.pending = [] →
    let timed : State :=
      { s with
        chutes := s.chutes.map fun k =>
          { k with
            state :=
              match k.state with
              | .session d ms => .session d (ms - 1)
              | .drum d ms p => .drum d (ms - 1) p
              | x => x
            hold := k.hold.map fun h => (h.1, h.2 - 1) }
        station :=
          { s.station with
            state :=
              match s.station.state with
              | .loading n src ms => .loading n src (ms - 1)
              | .measuring n src m =>
                .measuring n src
                  { m with
                    settle := match m.settle with | .running ms => .running (ms - 1) | x => x
                    reads := match m.reads with | .attempt ms => .attempt (ms - 1) | x => x }
              | .placing n src c ms => .placing n src c (ms - 1)
              | x => x }
        cabinet :=
          { s.cabinet with
            compartments := s.cabinet.compartments.map fun b =>
              { b with
                door :=
                  match b.door with
                  | .scanning op ms => .scanning op (ms - 1)
                  | .unlocked op ms => .unlocked op (ms - 1)
                  | .opened forced op left => .opened forced op (left.map (· - 1))
                  | x => x } }
        claims :=
          { s.claims with
            resources := s.claims.resources.map fun h =>
              match h with
              | .cosignWait l ms => .cosignWait l (ms - 1)
              | x => x }
        store := { s.store with clearing := s.store.clearing.map (· - 1) }
        links := s.links.map fun k =>
          { k with
            program := k.program.map fun p =>
              { p with cadence := match p.cadence with | .seconds n ms => .seconds n (ms - 1) | x => x } } }
    (s.register.walk = none → step s = .next timed) ∧
    ∀ w : Walk, s.register.walk = some w → InNumberOrder s.register →
      ((∀ r ∈ s.register.records, r.number ≤ w.visited) → step s = .next timed) ∧
      ∀ r ∈ s.register.records, w.visited < r.number →
        (∀ x ∈ s.register.records, w.visited < x.number → r.number ≤ x.number) →
        let removed : Prop :=
          (r.state = .counted ∨ r.state = .dispatched ∨ r.state = .void) ∧ r.arrivalDate ≤ w.date
        (¬ removed →
          step s = .next { timed with register := { s.register with walk := some ⟨w.date, r.number⟩ } }) ∧
        (removed →
          step s =
            .next { timed with
                    register :=
                      { s.register with
                        records := s.register.records.filter fun x => x.number != r.number
                        walk := some ⟨w.date, r.number⟩ }
                    advices :=
                      { s.advices with entries := s.advices.entries.filter fun a => r.advice != some a.index } })

/-- No command of the table ends in a fault or a refusal of the model. -/
def Obligations.EveryCommandAnswersNext : Prop := ∀ (i : Instr) (s : State), ∃ t, exec i s = .next t

/-- R187, R192: the characters of a good COMMAND frame, received by a hunting link, run the command they carry (a
command row is its frame received whole: log entries 2 and 6, DESIGN CHOICE); a frame whose check differs, or whose body
length is above 240, is discarded and counted, and draws no answer. -/
def Obligations.FramesAreCheckedAndRun : Prop :=
  ∀ (l : LinkId) (s : State), (s.links.get l).present = true → (s.links.get l).receiver = .hunting →
    (∀ (c : Command) (tag : Byte) (body : List Byte) (i : Instr),
      body.length % 2 = 0 → body.length ≤ 480 → decodeBody c l tag.toNat body = .command i →
      ∃ t, exec (.frameReceived l (commandFrame c tag body)) s = .next t ∧ exec i s = .next t) ∧
    let bad : State :=
      withLink l
        { s.links.get l with
          counters :=
            { (s.links.get l).counters with
              checkErrors := satInc 4294967295 (s.links.get l).counters.checkErrors } } s
    (∀ len : Byte, 240 < len.toNat → exec (.frameReceived l [0xA5#8, len]) s = .next bad) ∧
    ∀ (len : Byte) (covered check : List Byte), len.toNat ≤ 240 → covered.length = 3 + 2 * len.toNat →
      check.length = 2 → check ≠ bytesOf 2 (crc16 covered).toNat →
      exec (.frameReceived l (0xA5#8 :: len :: covered ++ check)) s = .next bad

/-- R186, R192, R193, R194, R197, Table 35: a command is answered EXECUTING on a link in EXECUTING; one but COLLECT and
DISCARD is answered RESULT_WAITING in RESULT; in READY, COLLECT and DISCARD are answered NO_RESULT and a command not
allowed to the role NOT_FOR_ROLE; on a link that is ABSENT or in LINE_LOW nothing happens. Nothing else changes. The
frame of the command: log entry 2. -/
def Obligations.LinksRefuseByPhaseAndRole : Prop :=
  ∀ (i : Instr) (l : LinkId) (tag : Nat) (c : Command) (s : State), commandOf i = some (l, tag, c) →
    (TakesFrames s l → (s.links.get l).phase = .executing → exec i s = .next (refusedAt l tag .executing c s)) ∧
    (TakesFrames s l → (s.links.get l).phase = .result → c ≠ .collect → c ≠ .discard →
      exec i s = .next (refusedAt l tag .resultWaiting c s)) ∧
    (ReadyLink s l → c = .collect ∨ c = .discard → exec i s = .next (refusedAt l tag .noResult c s)) ∧
    (ReadyLink s l → c.allowed l = false → exec i s = .next (refusedAt l tag .notForRole c s)) ∧
    ((s.links.get l).present = false ∨ (s.links.get l).receiver = .lineLow → exec i s = .next s)

/-- R194: COLLECT queues the oldest up to eight held records, DISCARD drops them all. The frame of the command: log
entry 2. -/
def Obligations.ResultsAreCollectedOrDropped : Prop :=
  ∀ (l : LinkId) (tag : Nat) (s : State), TakesFrames s l → (s.links.get l).phase = .result →
    let k := s.links.get l
    exec (.collect l tag) s =
        .next
          (withLink l
            { k with
              receiver := .hunting
              counters := k.counters.received
              held := k.held.drop 8
              phase := if k.held.length ≤ 8 then .ready else .result
              queue := k.queue ++ [.result tag (k.held.take 8) (decide (k.held.length ≤ 8))] } s) ∧
      exec (.discard l tag) s = .next (doneAt l tag .ok [] s)

/-- R198, R202, R204: CLEAR LINK COUNTERS, NOTICE ENABLE, REPORT PROGRAM and REPORT STOP write their fields of the
issuing link and nothing else. The frame of the command: log entry 2. -/
def Obligations.LinkSettingsAreWritten : Prop :=
  ∀ (l : LinkId) (tag : Nat) (s : State), ReadyLink s l →
    let k := s.links.get l
    exec (.clearLinkCounters l tag) s =
      .next (withLink l
        { k with
          receiver := .hunting
          counters := ⟨0, 0, 0, 0, 0, 0, 0⟩
          held := []
          queue := k.queue ++ [.done tag .ok 0 false] } s) ∧
    (∀ kinds : Nat, kinds < 2 ^ 20 →
      exec (.noticeEnable l tag kinds) s =
        .next (doneAt l tag .ok []
          (withLink l
            { k with
              notices := .tabulate fun i => { k.notices.get i with enabled := kinds.testBit i.val } } s))) ∧
    (∀ (n : Nat) (sources : List Nat), 1 ≤ sources.length → sources.length ≤ 12 → sources.Nodup →
      (∀ x ∈ sources, 1 ≤ x ∧ x ≤ 22) →
      (1 ≤ n → n ≤ 3600 →
        exec (.reportProgram l tag 1 n sources) s =
          .next (doneAt l tag .ok []
            (withLink l { k with program := some ⟨.seconds n (n * 1000), sources, 0⟩ } s))) ∧
      (1 ≤ n → n ≤ 255 →
        exec (.reportProgram l tag 2 n sources) s =
          .next (doneAt l tag .ok [] (withLink l { k with program := some ⟨.bags n 0, sources, 0⟩ } s)))) ∧
    exec (.reportStop l tag) s = .next (doneAt l tag .ok [] (withLink l { k with program := none } s))

/-- R189, R199: SET FORCED ERROR restarts the count; its DONE, and every frame queued before it (log entry 13, DESIGN
CHOICE: those are counted), is sent in its turn: the DONE with a good check and not counted, any other frame counted and
with its check inverted exactly when its count is a multiple of a setting of 1 or more. With none waiting nothing is
sent (log entry 30, DESIGN CHOICE). The frame of the command: log entry 2. -/
def Obligations.ForcedErrorsFollowTheCount : Prop :=
  ∀ (l : LinkId) (s : State),
    let k := s.links.get l
    (∀ tag n : Nat, n ≤ 255 → ReadyLink s l →
      exec (.setForcedError l tag n) s =
        .next (withLink l
          { k with
            receiver := .hunting
            counters := k.counters.received
            held := []
            forced := n
            forcedCount := 0
            queue := k.queue ++ [.done tag .ok 0 true] } s)) ∧
    (∀ (f : Frame) (rest : List Frame), k.queue = f :: rest →
      let sent := { k.counters with framesSent := satInc 4294967295 k.counters.framesSent }
      exec (.frameSent l) s =
        .next
          (withLink l
            (if f.isFresh then { k with queue := rest, counters := sent, sending := f.bytes false }
             else
               { k with
                 queue := rest
                 counters := sent
                 forcedCount := k.forcedCount + 1
                 sending := f.bytes (decide (1 ≤ k.forced ∧ k.forced ∣ k.forcedCount + 1)) }) s)) ∧
    (k.queue = [] → exec (.frameSent l) s = .next s)

/-- R196: a BREAK drops the held results and the waiting DONE, RESULT and REFUSAL frames, sets the long command to
DISCARD and leaves the link READY in LINE_LOW; the register, the claims and the link's counters are kept. -/
def Obligations.BreakDropsTheLinksWork : Prop :=
  ∀ (l : LinkId) (s : State), TakesFrames s l →
    ∃ t, exec (.lineBreak l) s = .next t ∧
      t = { s with links := t.links, cabinet := t.cabinet } ∧
      t.links =
        s.links.set l
          { s.links.get l with
            held := []
            queue := (s.links.get l).queue.filter Frame.isReport
            long := (s.links.get l).long.map fun c => { c with delivery := .discard }
            phase := .ready
            receiver := .lineLow } ∧
      ∀ (c : CompartmentId),
        { t.cabinet.compartments.get c with door := .locked } =
          { s.cabinet.compartments.get c with door := .locked } ∧
        (t.cabinet.compartments.get c).door = ((s.cabinet.compartments.get c).door).discarded l

/-- R127, R197: the fall of a present line makes the link ABSENT and READY with no frame waiting, and every resource
that links 1 to 3 hold or claim RETAINED; every other resource is kept, and every other link but for its notices. On an
ABSENT link the effects are the same (log entry 30, DESIGN CHOICE). -/
def Obligations.PresentLineFallRetainsHolds : Prop :=
  ∀ (l : LinkId) (s : State),
    ∃ t, exec (.presentLineFall l) s = .next t ∧
      t.links.get l =
        { s.links.get l with
          present := false
          phase := .ready
          held := []
          queue := []
          receiver := .hunting
          long := (t.links.get l).long
          notices := (t.links.get l).notices } ∧
      (∀ i, i ≠ l → t.links.get i = { s.links.get i with notices := (t.links.get i).notices }) ∧
      t.claims.safe = s.claims.safe ∧
      (∀ r : Fin 9,
        t.claims.resources.get r =
          match s.claims.resources.get r with
          | .held h k => if h = l ∧ l ≠ 0 then .retained else .held h k
          | .cosignWait h ms => if h = l ∧ l ≠ 0 then .retained else .cosignWait h ms
          | x => x) ∧
      (∀ c : CompartmentId,
        (t.cabinet.compartments.get c).occupants = (s.cabinet.compartments.get c).occupants) ∧
      ((∀ n src, s.station.state ≠ .blocked n src) → t.register = s.register ∧ t.station = s.station) ∧
      t = { s with register := t.register, station := t.station, cabinet := t.cabinet, claims := t.claims,
                   links := t.links }

/-- R186, R197, R205: the rise of the receive line ends LINE_LOW, the rise of the present line makes an ABSENT link
PRESENT and hunting, and a faulty character discards only a frame being received, counting its fault; an expired report
timer restarts at n, and on a PRESENT link queues a REPORT with the next number and a copy of every listed source. A
rise of a line that has risen, and an expiry of a timer that does not run, change nothing (log entries 30 and 5, DESIGN
CHOICE). -/
def Obligations.LinkEventsMoveTheLink : Prop :=
  (∀ (l : LinkId) (s : State),
     let k := s.links.get l
     let e := k.counters
     (k.receiver = .lineLow → exec (.receiveLineRise l) s = .next (withLink l { k with receiver := .hunting } s)) ∧
     (k.receiver ≠ .lineLow → exec (.receiveLineRise l) s = .next s) ∧
     (k.present = false →
       exec (.presentLineRise l) s = .next (withLink l { k with present := true, receiver := .hunting } s)) ∧
     (k.present = true → exec (.presentLineRise l) s = .next s) ∧
     (∀ taken, k.present = true → k.receiver = .inFrame taken →
       let after (c : LineCounters) : Host.Outcome State Fault Refusal :=
         .next (withLink l { k with receiver := .hunting, counters := c } s)
       exec (.receivedCharacterFault l .parity) s =
         after { e with parityErrors := satInc 4294967295 e.parityErrors } ∧
       exec (.receivedCharacterFault l .framing) s =
         after { e with framingErrors := satInc 4294967295 e.framingErrors } ∧
       exec (.receivedCharacterFault l .overrun) s =
         after { e with overrunErrors := satInc 4294967295 e.overrunErrors }) ∧
     ∀ f, k.receiver = .hunting ∨ k.receiver = .lineLow → exec (.receivedCharacterFault l f) s = .next s) ∧
  ∀ (l : LinkId) (s : State),
    let k := s.links.get l
    (∀ (n ms : Nat) (sources : List Nat) (produced : Nat), k.program = some ⟨.seconds n ms, sources, produced⟩ →
      (k.present = true →
        exec (.reportTimerExpiry l) s =
          .next
            (withLink l
              { k with
                program := some ⟨.seconds n (n * 1000), sources, (produced + 1) % 65536⟩
                queue := replaceOrAppend Frame.isReport
                  (.report ((produced + 1) % 65536) (sources.map fun x => (x, sourceBytes s x))) k.queue } s)) ∧
      (k.present = false →
        exec (.reportTimerExpiry l) s =
          .next (withLink l { k with program := some ⟨.seconds n (n * 1000), sources, produced⟩ } s))) ∧
    ((∀ n ms sources produced, k.program ≠ some ⟨.seconds n ms, sources, produced⟩) →
      exec (.reportTimerExpiry l) s = .next s)

/-- R201: a raise of any number of times sets the flag and adds that number to the count, up to 255, on every link where
the kind is ENABLED, and leaves everything else as it was; the attention line of a link is driven exactly while one of
its flags is set. -/
def Obligations.RaiseMarksEnabledLinks : Prop :=
  (∀ (k : Notice) (m : Nat) (s : State), 1 ≤ m →
    raiseTimes k m s =
      { s with
        links := .tabulate fun l =>
          { s.links.get l with
            notices := .tabulate fun i =>
              let cell := (s.links.get l).notices.get i
              if i = k.cell ∧ cell.enabled = true then ⟨true, true, min 255 (cell.count + m)⟩ else cell } }) ∧
  ∀ (l : LinkId) (s : State),
    (s.links.get l).attention = true ↔ ∃ i, ((s.links.get l).notices.get i).flag = true

/-! ## Reading -/

/-- R19, R20, R36, R44: READ RECORD and LIST RECORDS return copies of the record named and of the records that meet
every criterion given, in the order of the register's list, which StepKeepsTheRegister keeps ascending, READ ADVICE of
the entry with a tag or, after a summary, of the entries a selector (1 OPEN, 2 MATCHED, 3 ALL) selects, READ DEPOSITOR
of one entry or of every one; nothing but the issuing link changes. The frame of the command: log entry 2. -/
def Obligations.TableReadsReturnCopies : Prop :=
  ∀ (l : LinkId) (tag : Nat) (s : State), ReadyLink s l → s.store.valid = true →
    let ends (code : CompletionCode) (rs : List ResultRecord) : Host.Outcome State Fault Refusal :=
      .next (doneAt l tag code rs s)
    (∀ n r, n ≠ 0 → RecordAt s n r → exec (.readRecord l tag n) s = ends .ok [.custody r]) ∧
    (∀ n, n ≠ 0 → (∀ r ∈ s.register.records, r.number ≠ n) → exec (.readRecord l tag n) s = ends .notFound []) ∧
    (∀ (st : Option RecordState) (c : Option CompartmentId) (d : Option DepositorId) (date : Option Nat),
      (∀ x ∈ date, x ≤ 65535) →
      exec (.listRecords l tag ⟨st.map fun x => x.code + 1, c.map Fin.val, d.map Fin.val, date⟩) s =
        ends .ok
          ((s.register.records.filter fun r =>
            decide ((∀ x ∈ st, r.state = x) ∧ (∀ x ∈ c, r.compartment = some x) ∧ (∀ x ∈ d, r.depositor = x) ∧
              ∀ x ∈ date, r.arrivalDate = x)).map .custody)) ∧
    (∀ g a, 1 ≤ g → g ≤ 999999999 → (s.advices.entries.find? fun x => x.tag == g) = some a →
      exec (.readAdvice l tag true g) s = ends .ok [.advice a]) ∧
    (∀ v, 1 ≤ v → v ≤ 3 →
      ∃ summary, exec (.readAdvice l tag false v) s =
          ends .ok (.adviceSummary summary :: (s.advices.entries.filter fun a =>
            decide (v = 3 ∨ v = 1 ∧ a.matched = none ∨ v = 2 ∧ a.matched ≠ none)).map .advice) ∧
        summary.entries = s.advices.entries.length ∧ summary.emptySlots = 384 - s.advices.entries.length ∧
        summary.openCount = (s.advices.entries.filter fun a => a.matched.isNone).length ∧
        summary.expiryDate = s.advices.expiryDate ∧ summary.expiryCount = s.advices.expiryCount) ∧
    (∀ (i : DepositorId) (d : Depositor), s.roster.get i = some d →
      exec (.readDepositor l tag (some i.val)) s = ends .ok [.depositor i d]) ∧
    (∀ i : DepositorId, s.roster.get i = none → exec (.readDepositor l tag (some i.val)) s = ends .notFound []) ∧
    exec (.readDepositor l tag none) s =
      ends .ok ((List.finRange 128).filterMap fun i => (s.roster.get i).map fun d => .depositor i d)

/-- R47, R50, R64, R91, R98, R99, R102, R198, R202: READ CHUTE, READ STATION, READ COMPARTMENT and READ COUNTERS are
taken whatever the store and return their copies, of one entry or of every one in ascending order, READ COMPARTMENT of
ALL after the summary, READ COUNTERS with the link's own frame counted; READ NOTICES returns the flags and counts and
clears them, the enables kept. Nothing but the issuing link changes. That the closing conditions are a set (log entry 8)
and the reserved compartments two ascending lists (log entry 26) is the model's DESIGN CHOICE. The frame of the command:
log entry 2. -/
def Obligations.BlockReadsReturnCopies : Prop :=
  ∀ (l : LinkId) (tag : Nat) (s : State), ReadyLink s l →
    let ends (i : Instr) (rs : List ResultRecord) : Prop := exec i s = .next (doneAt l tag .ok rs s)
    let chute (c : ChuteId) : ChuteCopy :=
      let k := s.chutes.get c
      let clockBad := decide (s.clock.validity ≠ .valid)
      let closed := k.masked || s.intakeClosed || clockBad || !s.store.valid
      { number := c
        chute := k
        intakeClosed := s.intakeClosed
        isClosed := closed
        conditions :=
          (if k.masked then 1#4 else 0#4) ||| (if s.intakeClosed then 2#4 else 0#4) |||
          (if clockBad then 4#4 else 0#4) ||| (if s.store.valid then 0#4 else 8#4)
        panel :=
          match k.hold, k.state with
          | some (i, _), _ => i
          | none, .idle => if closed then .closed else .ready
          | none, .session _ _ => .sessionOpen
          | none, .drum _ _ _ => .turning
          | none, .fault => .fault }
    let box (c : CompartmentId) : Compartment := s.cabinet.compartments.get c
    let pending (c : CompartmentId) : Nat :=
      match s.station.state with
      | .placing _ _ target _ => if target = c then 1 else 0
      | _ => 0
    let reserve (k : BoxClass) : Nat :=
      match k with
      | .standard => s.cabinet.reserveStandard
      | .coin => s.cabinet.reserveCoin
    let reserved (c : CompartmentId) : Bool :=
      decide ((List.finRange 48).countP (fun d => decide (c < d ∧ (box d).cls = (box c).cls)) < reserve (box c).cls)
    let boxes (k : BoxClass) : List CompartmentId := (List.finRange 48).filter fun c => (box c).cls == k
    let free (k : BoxClass) (r : Bool) : Nat :=
      (((boxes k).filter fun c => reserved c == r).map fun c =>
        if (box c).inService then (match k with | .standard => 4 | .coin => 2) - (box c).occupants.length - pending c
        else 0).sum
    let compartment (c : CompartmentId) : CompartmentCopy :=
      { number := c, compartment := box c, pending := pending c, reserved := reserved c }
    let summary : CabinetSummary :=
      { standardCount := (boxes .standard).length
        coinCount := (boxes .coin).length
        reserveStandard := s.cabinet.reserveStandard
        reserveCoin := s.cabinet.reserveCoin
        reservedStandard := (boxes .standard).filter reserved
        reservedCoin := (boxes .coin).filter reserved
        freeStandard := free .standard false
        freeReservedStandard := free .standard true
        freeCoin := free .coin false
        freeReservedCoin := free .coin true
        lowStandard := s.cabinet.lowStandard
        lowCoin := s.cabinet.lowCoin
        spaceLow := s.store.params.spaceLow }
    ends (.readChute l tag none) ((List.finRange 4).map fun c => .chute (chute c)) ∧
    (∀ c : ChuteId, ends (.readChute l tag (some c.val)) [.chute (chute c)]) ∧
    ends (.readStation l tag)
      (.station s.station s.store.params.priority ::
        (List.finRange 8).map fun i => .rule i (s.station.rules.get i)) ∧
    ends (.readCompartment l tag none)
      (.compartmentSummary summary :: (List.finRange 48).map fun c => .compartment (compartment c)) ∧
    (∀ c : CompartmentId, ends (.readCompartment l tag (some c.val)) [.compartment (compartment c)]) ∧
    (∀ number : Option LinkId,
      let i := number.getD l
      ends (.readCounters l tag (number.map Fin.val))
        [.lineCounters i (if i = l then (s.links.get l).counters.received else (s.links.get i).counters),
         .dateCounts s.register.current none,
         .dateCounts s.register.lastCounts (some s.register.lastDate)]) ∧
    exec (.readNotices l tag) s =
      .next (doneAt l tag .ok [.notices (s.links.get l).notices]
        (withLink l
          { s.links.get l with
            notices := (s.links.get l).notices.map fun c => { c with flag := false, count := 0 } } s))

/-- R25, R45, R48, R63, R73, R85, R89, R100, R101, R138, R146, R147, R148, R158, R164, R165, R166, R169, R170, R179,
R208: while the store is invalid, every command that its rule refuses STORE_INVALID, given in its form by a link it is
allowed to with its fields in their ranges (a long one with none in flight), ends STORE_INVALID with the result records
its rule gives to every end, and changes nothing but the issuing link. That the clear-totals choice is 1 or 2 is the
model's (log entry 10, DESIGN CHOICE). The frame of the command: log entry 2. -/
def Obligations.InvalidStoreRefusesCommands : Prop :=
  ∀ (tag : Nat) (s : State), s.store.valid = false →
    let refused (l : LinkId) (i : Instr) (results : List ResultRecord) : Prop :=
      exec i s = .next (doneAt l tag .storeInvalid results s)
    let idle (l : LinkId) : Prop := (s.links.get l).long = none
    (∀ l, ReadyLink s l →
      (∀ n, n ≠ 0 → refused l (.readRecord l tag n) []) ∧
      (∀ (st : Option RecordState) (c : Option CompartmentId) (d : Option DepositorId) (date : Option Nat),
        (∀ x ∈ date, x ≤ 65535) →
        refused l (.listRecords l tag ⟨st.map fun x => x.code + 1, c.map Fin.val, d.map Fin.val, date⟩) []) ∧
      (∀ g, 1 ≤ g → g ≤ 999999999 → refused l (.readAdvice l tag true g) []) ∧
      (∀ v, 1 ≤ v → v ≤ 3 → refused l (.readAdvice l tag false v) []) ∧
      (∀ i : DepositorId, refused l (.readDepositor l tag (some i.val)) []) ∧
      refused l (.readDepositor l tag none) []) ∧
    (ReadyLink s 0 →
      let clock : ResultRecord := .clock s.clock s.store.params.cutoff
      let windows : List ResultRecord :=
        ((List.finRange 4).map fun i => .protection i (s.windows.protection.get i)) ++
          (List.finRange 6).map fun i => .detection i (s.windows.detection.get i)
      (∀ t d, t ≤ 86399 → d ≤ 65535 → refused 0 (.setClock 0 tag (some t) (some d)) [clock]) ∧
      refused 0 (.setClock 0 tag none none) [clock] ∧
      (∀ (i : Fin 4) (on : Bool) (base ignore links ops : Nat), base < 64 → ignore < 64 → links < 8 → ops < 8 →
        refused 0 (.setWindow 0 tag 1 i.val (some (.protection (if on then 1 else 2) base ignore links ops))) windows) ∧
      (∀ (i : Fin 6) (on : Bool) (lo hi tlo thi links ops : Nat), lo ≤ hi → hi < 48 → tlo ≤ 86399 → thi ≤ 86399 →
        links < 8 → ops < 8 →
        refused 0 (.setWindow 0 tag 2 i.val (some (.detection (if on then 1 else 2) lo hi tlo thi links ops)))
          windows) ∧
      (∀ i : Fin 4, refused 0 (.setWindow 0 tag 1 i.val none) windows) ∧
      ∀ i : Fin 6, refused 0 (.setWindow 0 tag 2 i.val none) windows) ∧
    (∀ l : LinkId, l ≤ 1 → ReadyLink s l →
      (∀ n v lo hi, parameterLink n = l → parameterRange n = some (lo, hi) → lo ≤ v → v ≤ hi →
        refused l (.setParameter l tag (some n) (some v)) [parameterRecord l s]) ∧
      refused l (.setParameter l tag none none) [parameterRecord l s]) ∧
    (ReadyLink s 1 →
      (∀ es : List AdviceArgs, 1 ≤ es.length → es.length ≤ 8 → refused 1 (.loadAdvice 1 tag es) []) ∧
      (∀ g, 1 ≤ g → g ≤ 999999999 → refused 1 (.cancelAdvice 1 tag g) []) ∧
      (∀ (d : DepositorId) (credential permissions allowance : Nat) (active coin clear : Bool), 1 ≤ credential →
        credential ≤ 9999999999 → permissions < 16 → 1 ≤ allowance → allowance ≤ 20 →
        refused 1
          (.setDepositor 1 tag d.val
            ⟨credential, if active then 1 else 2, permissions, allowance, if coin then 2 else 1,
              if clear then 1 else 2⟩) []) ∧
      (∀ d : DepositorId, refused 1 (.removeDepositor 1 tag d.val) []) ∧
      (∀ n (k : Fin 12), refused 1 (.clearReason 1 tag n (k.val + 1)) []) ∧
      (∀ n, refused 1 (.voidRecord 1 tag n) []) ∧
      (∀ date, idle 1 → refused 1 (.purge 1 tag date) []) ∧
      (∀ c : ChuteId, refused 1 (.intakeMask 1 tag c.val) [] ∧ refused 1 (.intakeUnmask 1 tag c.val) [] ∧
        refused 1 (.clearChute 1 tag c.val) []) ∧
      refused 1 (.intakeCloseAll 1 tag) [] ∧ refused 1 (.intakeOpenAll 1 tag) [] ∧
      (∀ n, n ≠ 0 → refused 1 (.reEnter 1 tag n) []) ∧
      refused 1 (.clearStation 1 tag) [] ∧
      (∀ (i : Fin 8) (q : Quantity) (c : Condition) (reference : Int) (a : RuleAction),
        -2147483648 ≤ reference → reference ≤ 2147483647 →
        refused 1
          (.setRule 1 tag (i.val + 1)
            ⟨quantities.idxOf q + 1, conditions.idxOf c + 1, reference, ruleActions.idxOf a + 1⟩) []) ∧
      (∀ (c : CompartmentId) (cls : BoxClass) (service : Bool),
        refused 1
          (.setCompartment 1 tag c.val (if cls = .standard then 1 else 2) (if service then 1 else 2)) []) ∧
      (∀ n, n ≤ 12 → n ≤ (boxesOf s .standard).length → refused 1 (.setReserve 1 tag 1 n) []) ∧
      (∀ n, n ≤ 4 → n ≤ (boxesOf s .coin).length → refused 1 (.setReserve 1 tag 2 n) []) ∧
      ∀ c : CompartmentId, idle 1 →
        refused 1 (.openDoor 1 tag c.val) [] ∧ refused 1 (.inventory 1 tag c.val) []) ∧
    (∀ (l : LinkId) (c : CompartmentId) (ns : List Nat), l ≠ 0 → ReadyLink s l → idle l → 1 ≤ ns.length →
      ns.length ≤ 4 → ns.Nodup → (∀ n ∈ ns, n ≠ 0) → refused l (.handOut l tag c.val ns) []) ∧
    (ReadyLink s 2 → ∀ n notes coins, n ≠ 0 → notes ≤ 999999999 → coins ≤ 999999999 →
      refused 2 (.countResult 2 tag n notes coins) []) ∧
    (ReadyLink s 3 →
      refused 3 (.manifestOpen 3 tag) [manifestSummary s] ∧
      (∀ n, n ≠ 0 → refused 3 (.manifestAdd 3 tag n) [manifestSummary s] ∧
        refused 3 (.manifestDrop 3 tag n) [manifestSummary s]) ∧
      refused 3 (.manifestClose 3 tag) [manifestSummary s] ∧
      refused 3 (.manifestAbandon 3 tag) [manifestSummary s])

/-! ## Safety -/

/-- R10, R116, R117, R122, R133, R139, R163, R185: dual control, the phases, the capacity and the manifest's bounds hold at
State.reset, the model's state right after reset (log entry 3, DESIGN CHOICE), and its records are in ascending order.
-/
def Obligations.ResetIsSafe : Prop :=
  DualControl State.reset ∧ LinkPhases State.reset ∧ CapacityKept State.reset ∧ ManifestKept State.reset ∧
    NumbersInRange State.reset.register ∧ (State.reset.register.records.map Record.number).Nodup ∧
    ClockInRange State.reset ∧ InNumberOrder State.reset.register

/-- R116, R117, R122, R139: every step keeps dual control: banks leave RETAINED only with the safe OPEN, a HELD bank has a
cosigner, a cosigner is another link than the holder, and a door is UNLOCKED only for a link that holds its bank. -/
def Obligations.StepKeepsDualControl : Prop :=
  ∀ s t : State, DualControl s → step s = .next t → DualControl t

/-- R185: every step keeps what the links hold in each phase. -/
def Obligations.StepKeepsLinkPhases : Prop := ∀ s t : State, LinkPhases s → step s = .next t → LinkPhases t

/-- R1, R9, R10: every step keeps one reservation for each chute in DRUM, at most 320 records and reservations, and the
custody numbers distinct, in range and, in the register's list, in ascending order. -/
def Obligations.StepKeepsTheRegister : Prop :=
  ∀ s t : State, CapacityKept s → NumbersInRange s.register → (s.register.records.map Record.number).Nodup →
    step s = .next t →
      CapacityKept t ∧ NumbersInRange t.register ∧ (t.register.records.map Record.number).Nodup ∧
        (InNumberOrder s.register → InNumberOrder t.register)

/-- R163, R175, Tables 27, 28 and 41: every step keeps the manifest counter in range and the open manifest within 24
entries, none repeated, and the seconds of day, the date and the cutoff in their ranges. -/
def Obligations.StepKeepsManifestAndClock : Prop :=
  ∀ s t : State, step s = .next t → (ManifestKept s → ManifestKept t) ∧ (ClockInRange s → ClockInRange t)

/-- R9: with at most 320 records in range, the number issued is 1 to 65,535 and no record holds it. -/
def Obligations.IssuedNumberIsFree : Prop :=
  ∀ r : Register, NumbersInRange r →
    1 ≤ issuedNumber r ∧ issuedNumber r ≤ 65535 ∧ ∀ x ∈ r.records, x.number ≠ issuedNumber r

/-! ## Starts, the store and the parameters -/

/-- R24, R115, R133, R184, R200, R203, R206: a start with the store invalid gives the values of State.reset, the doors,
the present and the receive lines as read, with STORE_LOST and CLOCK_INVALID raised on every link. State.reset itself,
such a start with every door closed and every line high, is log entry 3 (DESIGN CHOICE), and its last-date business date
0 is log entry 31 (DESIGN CHOICE). -/
def Obligations.InvalidStartGivesResetValues : Prop :=
  ∀ (battOk : Bool) (lines : StartLines) (s : State),
    (battOk = false ∨ s.store.valid = false) →
    ∃ t, exec (.powerUp battOk lines) s = .next t ∧
      (s.store.valid = false → exec (.resetN lines) s = .next t) ∧
      t = { State.reset with pending := s.pending, cabinet := t.cabinet, links := t.links } ∧
      t.cabinet =
        { compartments := t.cabinet.compartments, reserveStandard := 4, reserveCoin := 1, lowStandard := false,
          lowCoin := false } ∧
      (∀ c : CompartmentId,
        t.cabinet.compartments.get c =
          { State.reset.cabinet.compartments.get c with
            door := if lines.doorsOpen.getLsbD c.val then .opened false none (some 180000) else .locked }) ∧
      ∀ l : LinkId,
        t.links.get l =
          { State.reset.links.get l with
            present := lines.present.getLsbD l.val
            receiver :=
              if lines.present.getLsbD l.val && lines.receiveLow.getLsbD l.val then .lineLow else .hunting }

/-- R23, R45, R65, R92, R114, R133, R135, R157, R174, R183, R200, R203, R208: a start with the store valid keeps the
advice table, the roster, the windows, the manifest, the rules, the queues, the masks, the intake close, the parameters
and of every compartment all but its door; strands the record at the station, whose state is then FAULT; drops sessions,
reservations, holds and report programs; reads doors and lines; gives the low marks without SPACE_LOW; and leaves every
link READY with the start's notices alone. An IDLE station then makes the first grant (ArbiterGrantsTheHead). The panels
have no hold (log entry 12). -/
def Obligations.ValidStartKeepsTheStore : Prop :=
  ∀ (lines : StartLines) (s : State), s.store.valid = true →
    let interrupted : Bool := s.register.records.any fun r => r.state == .checking || r.state == .routing
    ∃ u, exec (.powerUp true lines) s = .next (arbitrate u) ∧ exec (.resetN lines) s = .next (arbitrate u) ∧
      u =
        { s with
          register :=
            { s.register with
              records :=
                s.register.records.map fun r =>
                  if r.state = .checking ∨ r.state = .routing then { r with state := .stranded, compartment := none }
                  else r
              reservations := 0
              walk := none }
          chutes := s.chutes.map fun k => { k with state := .idle, hold := none }
          station := { s.station with state := if interrupted then .fault else .idle, lastServed := 3 }
          cabinet :=
            { s.cabinet with
              compartments := .tabulate fun c =>
                { s.cabinet.compartments.get c with
                  door :=
                    if lines.doorsOpen.getLsbD c.val then
                      .opened false none (some (s.store.params.leftOpenTime * 1000))
                    else .locked }
              lowStandard := decide (freePlaces u .standard false ≤ s.store.params.spaceLow)
              lowCoin := decide (freePlaces u .coin false ≤ s.store.params.spaceLow) }
          claims := { resources := .fill .retained, safe := .locked }
          clock :=
            { s.clock with
              seconds := (s.clock.seconds + lines.downSeconds) % 86400
              validity := u.clock.validity }
          store := { s.store with clearing := none }
          links := .tabulate fun l =>
            { phase := .ready
              receiver :=
                if lines.present.getLsbD l.val && lines.receiveLow.getLsbD l.val then .lineLow else .hunting
              present := lines.present.getLsbD l.val
              held := []
              long := none
              queue := []
              sending := []
              counters := ⟨0, 0, 0, 0, 0, 0, 0⟩
              forced := 0
              forcedCount := 0
              notices := .tabulate fun i =>
                if i = Notice.powerReturn.cell ∨ (i = Notice.clockInvalid.cell ∧ u.clock.validity ≠ .valid) ∨
                    ((i = Notice.stranded.cell ∨ i = Notice.stationFault.cell) ∧ interrupted = true) then
                  ⟨true, true, 1⟩
                else ⟨true, false, 0⟩
              program := none } } ∧
      (s.clock.validity ≠ .valid → u.clock.validity = s.clock.validity) ∧
      (interrupted = true ∨ (s.station.service = [] ∧ ∀ c : ChuteId, (s.chutes.get c).queue = []) →
        arbitrate u = u) ∧
      arbitrate u =
        { u with
          register := { u.register with records := (arbitrate u).register.records }
          chutes := (arbitrate u).chutes
          station := (arbitrate u).station } ∧
      (arbitrate u).station.rules = s.station.rules ∧
      ∀ c : ChuteId,
        (arbitrate u).chutes.get c =
          { s.chutes.get c with state := .idle, hold := none, queue := ((arbitrate u).chutes.get c).queue }

/-- R183: at a start with the store valid a VALID clock counts on by the time down, and becomes INVALID with the cause
CUTOFF_MISSED exactly when one of those seconds brought it to the cutoff; the date is kept. -/
def Obligations.StartTestsTheMissedCutoff : Prop :=
  ∀ (lines : StartLines) (s : State), s.store.valid = true → s.clock.validity = .valid →
    ClockInRange s →
    ∃ t, exec (.powerUp true lines) s = .next t ∧ t.clock.date = s.clock.date ∧
      t.clock.seconds = (s.clock.seconds + lines.downSeconds) % 86400 ∧
      ((∃ k, 1 ≤ k ∧ k ≤ lines.downSeconds ∧ (s.clock.seconds + k) % 86400 = s.store.params.cutoff) →
        t.clock.validity = .invalid .cutoffMissed) ∧
      ((∀ k, 1 ≤ k → k ≤ lines.downSeconds → (s.clock.seconds + k) % 86400 ≠ s.store.params.cutoff) →
        t.clock.validity = .valid)

/-- R24, R52, R66, R99, R192, R193, R207: INITIALISE STORE of a READY time-lock link without a long command is refused
WRONG_STATE while the store is valid and a record is non-terminal or a compartment occupied; otherwise it is accepted,
makes the store INVALID, ends every session and drum turn with CLOSED shown (log entry 12), returns the reservations and
sets the counts of both per-date sets to 0 (log entry 32, DEDUCED). Its completion makes the store VALID, gives every
block its values and raises CLOCK_INVALID; the long command of link 0 ends OK, or is dropped under DISCARD. Doors,
holders, the states of chutes and station, and links otherwise are left as they stand, reservations and a purge walk too
(log entry 25). A completion where it does not run changes nothing (log entry 30, DESIGN CHOICE). The frame of the
command: log entry 2. -/
def Obligations.InitialiseStoreClearsTheStore : Prop :=
  ∀ (tag : Nat) (s : State),
    let empty : Prop :=
      (∀ r ∈ s.register.records, r.state = .counted ∨ r.state = .dispatched ∨ r.state = .void) ∧
      ∀ c : CompartmentId, (s.cabinet.compartments.get c).occupants = []
    (ReadyLink s 0 → (s.links.get 0).long = none →
      (s.store.valid = true → ¬ empty →
        exec (.initialiseStore 0 tag) s = .next (doneAt 0 tag .wrongState [] s)) ∧
      (s.store.valid = false ∨ empty →
        exec (.initialiseStore 0 tag) s =
          .next (executingAt 0 tag .initialiseStore
            { s with
              store := { s.store with valid := false, clearing := some 1500 }
              register :=
                { s.register with
                  reservations := s.register.reservations - s.chutes.cells.countP Chute.inDrum
                  current := ⟨0, 0, 0, 0, 0, 0, 0, 0⟩
                  lastCounts := ⟨0, 0, 0, 0, 0, 0, 0, 0⟩ }
              chutes := s.chutes.map fun k =>
                match k.state with
                | .idle => { k with hold := k.hold.map fun _ => (.closed, 4000) }
                | .session _ _ => { k with state := .idle, hold := some (.closed, 4000) }
                | .drum _ _ _ => { k with state := .idle, hold := some (.closed, 4000) }
                | .fault => k }))) ∧
    (s.store.clearing = none → exec .initialiseStoreComplete s = .next s) ∧
    ∀ ms, s.store.clearing = some ms →
      let values : State :=
        { s with
          register :=
            { s.register with
              records := []
              nextNumber := 1
              current := ⟨0, 0, 0, 0, 0, 0, 0, 0⟩
              lastCounts := ⟨0, 0, 0, 0, 0, 0, 0, 0⟩
              lastDate := 0 }
          advices := ⟨[], 0, 0⟩
          roster := .fill none
          chutes := s.chutes.map fun k => { k with masked := false, queue := [] }
          intakeClosed := false
          station := { s.station with lastServed := 3, service := [], rules := .fill ⟨.weight, .off, 0, .mark⟩ }
          cabinet :=
            { compartments := .tabulate fun c =>
                { cls := if c.val < 40 then .standard else .coin
                  inService := true
                  occupants := []
                  handling := none
                  overfull := false
                  foreign := []
                  furtherForeign := 0
                  door := (s.cabinet.compartments.get c).door }
              reserveStandard := 4
              reserveCoin := 1
              lowStandard := false
              lowCoin := false }
          windows :=
            { protection := .fill ⟨false, 0, 0, 0, 0⟩
              detection := .fill ⟨false, 0, 47, 0, 86399, 0, 0⟩ }
          manifest := ⟨1, none⟩
          clock := ⟨0, 0, .invalid .initialised, none⟩
          store := ⟨true, none, ⟨60, 2500, 600, 3, 15, 45, 5, 8, .rotating, 4, 0, 20, 180, 30, 57600⟩⟩ }
      let raised : State := raise .clockInvalid values
      let k : Link := raised.links.get 0
      (∀ c t, (s.links.get 0).long = some ⟨c, t, .deliver⟩ →
        exec .initialiseStoreComplete s =
          .next (withLink 0
            { k with long := none, phase := .ready, held := [], queue := k.queue ++ [.done t .ok 0 false] } raised)) ∧
      (∀ c t, (s.links.get 0).long = some ⟨c, t, .discard⟩ →
        exec .initialiseStoreComplete s = .next (withLink 0 { k with long := none } raised)) ∧
      ((s.links.get 0).long = none → exec .initialiseStoreComplete s = .next raised)

/-- R99, R192, R208, Table 41: SET PARAMETER from a role's own link writes a value in its range, the cutoff only with
the clock VALID, and ends with the parameters of the role; the space-low threshold also gives the low marks anew and
raises SPACE_LOW once for each class whose mark is set by it. A value out of range is refused OUT_OF_RANGE, the cutoff
with the clock INVALID CLOCK_INVALID, and a parameter of the other role NOT_FOR_ROLE; without fields nothing is written.
The frame of the command: log entry 2. -/
def Obligations.SetParameterWritesTheValue : Prop :=
  ∀ (tag : Nat) (s : State), s.store.valid = true →
    (∀ (l : LinkId) (n v lo hi : Nat), ReadyLink s l → parameterLink n = l → parameterRange n = some (lo, hi) →
      lo ≤ v → v ≤ hi →
      (n = 15 → s.clock.validity = .valid) →
      ∃ p : Params, p.read n = v ∧ (∀ m, m ≠ n → p.read m = s.store.params.read m) ∧
        let written : State := { s with store := { s.store with params := p } }
        let standard := decide (freePlaces s .standard false ≤ v)
        let coin := decide (freePlaces s .coin false ≤ v)
        let marked : State :=
          raiseTimes .spaceLow
            ((if standard && !s.cabinet.lowStandard then 1 else 0) + (if coin && !s.cabinet.lowCoin then 1 else 0))
            { written with cabinet := { s.cabinet with lowStandard := standard, lowCoin := coin } }
        exec (.setParameter l tag (some n) (some v)) s =
          .next (doneAt l tag .ok [parameterRecord l written] (if n = 10 then marked else written))) ∧
    (∀ (l : LinkId) (n v lo hi : Nat), ReadyLink s l → parameterLink n = l → parameterRange n = some (lo, hi) →
      v < lo ∨ hi < v →
      exec (.setParameter l tag (some n) (some v)) s =
        .next (doneAt l tag .outOfRange [parameterRecord l s] s)) ∧
    (∀ v, ReadyLink s 0 → v ≤ 86399 → s.clock.validity ≠ .valid →
      exec (.setParameter 0 tag (some 15) (some v)) s =
        .next (doneAt 0 tag .clockInvalid [parameterRecord 0 s] s)) ∧
    (∀ (l : LinkId) (n : Nat) (v : Option Nat), ReadyLink s l → 1 ≤ n → n ≤ 15 → parameterLink n ≠ l →
      exec (.setParameter l tag (some n) v) s = .next (refusedAt l tag .notForRole .setParameter s)) ∧
    ∀ l : LinkId, l ≤ 1 → ReadyLink s l →
      exec (.setParameter l tag none none) s = .next (doneAt l tag .ok [parameterRecord l s] s)

/-! ## The branch clock -/

/-- R22, R34, R40, R176, R177: an advance that does not reach the cutoff, or is made while the clock is INVALID, moves
the seconds of day alone; an advance of a VALID clock to the cutoff rolls the date, the counters, the advice table and
the roster, and raises DATE_ROLLED. -/
def Obligations.AdvanceMovesTheClock : Prop :=
  (∀ s : State,
     let t := if s.clock.seconds < 86399 then s.clock.seconds + 1 else 0
     (s.clock.validity ≠ .valid ∨ t ≠ s.store.params.cutoff) →
     exec .clockAdvance s = .next { s with clock := { s.clock with seconds := t } }) ∧
  ∀ s : State,
    let t := if s.clock.seconds < 86399 then s.clock.seconds + 1 else 0
    let d := if s.clock.date < 65535 then s.clock.date + 1 else 0
    let kept := s.advices.entries.filter fun a => a.matched.isSome || decide (d ≤ a.date + 1)
    s.clock.validity = .valid → t = s.store.params.cutoff →
    exec .clockAdvance s =
      .next (raise .dateRolled
        { s with
          clock := { seconds := t, date := d, validity := .valid, lastChange := some ⟨d, t, .cutoff⟩ }
          register := { s.register with current := DateCounts.zero, lastCounts := s.register.current,
                                        lastDate := s.clock.date }
          advices := { entries := kept, expiryDate := d, expiryCount := s.advices.entries.length - kept.length }
          roster := s.roster.map fun x => x.map fun e => { e with remaining := e.allowance, arrivals := 0 } })

/-- R179: SET CLOCK writes the reading and makes the clock VALID, changes the counters, advices and roster only where
the date differs, and ends with the clock summary. The frame of the command: log entry 2. -/
def Obligations.SetClockWritesTheReading : Prop :=
  ∀ (tag t d : Nat) (s : State), ReadyLink s 0 → s.store.valid = true → t ≤ 86399 → d ≤ 65535 →
    let same : Clock := { seconds := t, date := d, validity := .valid, lastChange := s.clock.lastChange }
    let new : Clock := { same with lastChange := some ⟨d, t, .setClock⟩ }
    let kept := s.advices.entries.filter fun a => a.matched.isSome || decide (d ≤ a.date + 1)
    (d = s.clock.date →
      exec (.setClock 0 tag (some t) (some d)) s =
        .next (doneAt 0 tag .ok [.clock same s.store.params.cutoff] { s with clock := same })) ∧
    (d ≠ s.clock.date →
      exec (.setClock 0 tag (some t) (some d)) s =
        .next (doneAt 0 tag .ok [.clock new s.store.params.cutoff]
          (raise .dateRolled
            { s with
              clock := new
              register := { s.register with current := DateCounts.zero }
              advices := { entries := kept, expiryDate := d, expiryCount := s.advices.entries.length - kept.length }
              roster := s.roster.map fun x => x.map fun e => { e with remaining := e.allowance, arrivals := 0 } }))) ∧
    exec (.setClock 0 tag none none) s = .next (doneAt 0 tag .ok [.clock s.clock s.store.params.cutoff] s)

/-! ## Chutes -/

/-- R38, R50, R51, R52: a credential that meets every test of the roster at an IDLE chute that is not closed opens a
session with the idle timer started; one at a chute that is not IDLE is refused BUSY, at a closed IDLE chute CLOSED, the
code shown for 4 s and the refusal counted. The store is valid; nothing else changes. -/
def Obligations.CredentialOpensSessionOrIsRefused : Prop :=
  (∀ (c : ChuteId) (n : Nat) (d : DepositorId) (e : Depositor) (s : State),
     (s.chutes.get c).state = .idle → (s.chutes.get c).masked = false → s.intakeClosed = false →
     s.clock.validity = .valid → s.store.valid = true → 1 ≤ n → n ≤ 9999999999 →
     s.roster.get d = some e → e.credential = n →
     (∀ i x, s.roster.get i = some x → x.credential = n → i = d) →
     e.state = .active → e.permissions.getLsbD c.val = true → e.remaining ≠ 0 →
     exec (.credentialPresented c n) s =
       .next (modifyChute c
         (fun k => { k with state := .session d (s.store.params.sessionIdle * 1000), hold := none }) s)) ∧
  ∀ (c : ChuteId) (n : Nat) (s : State), s.store.valid = true →
    let counted := countUp (fun k => { k with refusedCredentials := upTo65535 k.refusedCredentials }) s
    ((s.chutes.get c).state ≠ .idle →
      exec (.credentialPresented c n) s =
        .next (modifyChute c (fun k => { k with hold := some (.busy, 4000) }) counted)) ∧
    ((s.chutes.get c).state = .idle →
      ((s.chutes.get c).masked = true ∨ s.intakeClosed = true ∨ s.clock.validity ≠ .valid) →
      exec (.credentialPresented c n) s =
        .next (modifyChute c (fun k => { k with hold := some (.closed, 4000) }) counted))

/-- R10, R50, R53, R54: DROP in SESSION starts a drum turn with a reservation when the depositor has bags left, the
throat has room and a record is free, and each refusal shows its code; END or the idle timer ends a session with ENDED
shown for 4 s; END in DRUM sets the end pending mark; the end of a panel hold removes it. Nothing else changes. -/
def Obligations.SessionButtonsAndTimers : Prop :=
  (∀ (c : ChuteId) (d : DepositorId) (ms : Nat) (e : Depositor) (s : State),
     (s.chutes.get c).state = .session d ms → s.roster.get d = some e →
     (e.remaining = 0 →
       exec (.drop c) s = .next (modifyChute c (fun k => { k with state := .idle, hold := some (.limit, 4000) }) s)) ∧
     (e.remaining ≠ 0 → 3 ≤ (s.chutes.get c).queue.length →
       exec (.drop c) s = .next (modifyChute c (fun k => { k with hold := some (.wait, 4000) }) s)) ∧
     (e.remaining ≠ 0 → (s.chutes.get c).queue.length < 3 →
       (320 ≤ s.register.records.length + s.register.reservations →
         exec (.drop c) s = .next (modifyChute c (fun k => { k with hold := some (.full, 4000) }) s)) ∧
       (s.register.records.length + s.register.reservations < 320 →
         exec (.drop c) s =
           .next (modifyChute c
             (fun k => { k with state := .drum d (s.store.params.drumWindow * 1000) false, hold := none })
             { s with register := { s.register with reservations := s.register.reservations + 1 } })))) ∧
  ∀ (c : ChuteId) (s : State),
    (∀ d ms, (s.chutes.get c).state = .session d ms →
      let ended := modifyChute c (fun k => { k with state := .idle, hold := some (.ended, 4000) }) s
      exec (.endPressed c) s = .next ended ∧ exec (.idleTimerExpiry c) s = .next ended) ∧
    (∀ d ms p, (s.chutes.get c).state = .drum d ms p →
      exec (.endPressed c) s = .next (modifyChute c (fun k => { k with state := .drum d ms true }) s)) ∧
    exec (.panelHoldExpiry c) s = .next (modifyChute c (fun k => { k with hold := none }) s)

/-- R2, R7, R9, R10, R39, R55: a throat-entry report in DRUM creates a record with the chute's depositor, the chute and
the clock's reading, consumes the reservation, counts the arrival, charges the roster, and ends the turn: IDLE when the
end pending mark is set. -/
def Obligations.ThroatEntryCreatesTheRecord : Prop :=
  ∀ (c : ChuteId) (d : DepositorId) (ms : Nat) (p : Bool) (e : Depositor) (s : State),
    (s.chutes.get c).state = .drum d ms p → s.roster.get d = some e →
    ∃ t r, exec (.throatEntryReport c) s = .next t ∧ r ∈ t.register.records ∧
      r.number = issuedNumber s.register ∧ r.depositor = d ∧ r.source = c ∧ r.arrivalDate = s.clock.date ∧
      r.arrivalSeconds = s.clock.seconds ∧ r.tag = none ∧ r.advice = none ∧ r.compartment = none ∧
      r.reasons = 0 ∧ r.count = none ∧ r.manifest = none ∧
      (r.state = .waiting ∨ r.state = .checking) ∧
      t.register.records.length = s.register.records.length + 1 ∧
      t.register.reservations = s.register.reservations - 1 ∧
      t.register.current = { s.register.current with arrivals := upTo65535 s.register.current.arrivals } ∧
      t.roster = s.roster.set d (some { e with remaining := e.remaining - 1, arrivals := satInc 255 e.arrivals }) ∧
      (p = true ∨ e.remaining ≤ 1 →
        (t.chutes.get c).state = .idle ∧ (t.chutes.get c).hold = some (.receivedLast, 4000)) ∧
      (p = false → 2 ≤ e.remaining →
        (t.chutes.get c).state = .session d (s.store.params.sessionIdle * 1000) ∧
          (t.chutes.get c).hold = some (.received, 4000)) ∧
      (∀ i, i ≠ c → t.chutes.get i = { s.chutes.get i with queue := (t.chutes.get i).queue }) ∧
      t = { s with register := t.register, roster := t.roster, chutes := t.chutes, station := t.station }

/-- R8, R57, R59, R60, R61: a jam in DRUM creates the record STRANDED, consumes the reservation and faults the chute,
raising CHUTE_FAULT and STRANDED; a throat entry or a jam at a chute that is neither in DRUM nor in FAULT faults it,
raising CHUTE_FAULT, and creates no record; a chute already in FAULT is left as it is. -/
def Obligations.JamsAndStrayEntriesFaultTheChute : Prop :=
  (∀ (c : ChuteId) (d : DepositorId) (ms : Nat) (p : Bool) (s : State),
     (s.chutes.get c).state = .drum d ms p →
     ∃ t r, exec (.jamReport c) s = .next t ∧ r ∈ t.register.records ∧
       r.number = issuedNumber s.register ∧ r.depositor = d ∧ r.source = c ∧ r.arrivalDate = s.clock.date ∧
       r.arrivalSeconds = s.clock.seconds ∧ r.state = .stranded ∧ r.tag = none ∧ r.reasons = 0 ∧
       t.register.records.length = s.register.records.length + 1 ∧
       t.register.reservations = s.register.reservations - 1 ∧
       (t.chutes.get c).state = .fault ∧ (t.chutes.get c).queue = (s.chutes.get c).queue ∧
       t.links = (raise .stranded (raise .chuteFault s)).links ∧
       t = { s with register := t.register, roster := t.roster, chutes := t.chutes, links := t.links }) ∧
  ∀ (c : ChuteId) (s : State), (∀ d ms p, (s.chutes.get c).state ≠ .drum d ms p) →
    let faulted :=
      if (s.chutes.get c).state = .fault then s
      else raise .chuteFault (modifyChute c (fun k => { k with state := .fault, hold := none }) s)
    exec (.throatEntryReport c) s = .next faulted ∧ exec (.jamReport c) s = .next faulted

/-- R56: the drum window's expiry returns the reservation and ends the turn: IDLE showing ENDED with the end pending
mark set, SESSION showing NO_BAG otherwise. -/
def Obligations.DrumWindowReturnsTheReservation : Prop :=
  ∀ (c : ChuteId) (d : DepositorId) (ms : Nat) (p : Bool) (s : State),
    (s.chutes.get c).state = .drum d ms p →
    exec (.drumWindowExpiry c) s =
      .next (modifyChute c
        (fun k =>
          if p then { k with state := .idle, hold := some (.ended, 4000) }
          else { k with state := .session d (s.store.params.sessionIdle * 1000), hold := some (.noBag, 4000) })
        { s with register := { s.register with reservations := s.register.reservations - 1 } })

/-- R48, R49, R50, R63: the four INTAKE commands write the masks and the intake close; MASK and CLOSE ALL, where they
change their value, also end sessions, with CLOSED shown for 4 s, mark drum turns end pending and put CLOSED in the
place of a held indication of an IDLE chute (log entry 12). CLEAR CHUTE of a faulted chute by the link that holds its
hatch strands the queued records and returns their copies, empties the queue and leaves the chute IDLE without a hold
(log entry 12), raising STRANDED once where a record was stranded. Nothing but the chutes concerned and the issuing link
changes. The frame of the command: log entry 2. -/
def Obligations.ChuteCommandsMaskAndClear : Prop :=
  (∀ (tag : Nat) (s : State), ReadyLink s 1 → s.store.valid = true →
     let closing (k : Chute) : Chute :=
       match k.state with
       | .idle => { k with hold := k.hold.map fun _ => (.closed, 4000) }
       | .session _ _ => { k with state := .idle, hold := some (.closed, 4000) }
       | .drum d ms _ => { k with state := .drum d ms true }
       | .fault => k
     (∀ c : ChuteId,
       exec (.intakeUnmask 1 tag c.val) s =
         .next (doneAt 1 tag .ok [] (modifyChute c (fun k => { k with masked := false }) s))) ∧
     (exec (.intakeOpenAll 1 tag) s = .next (doneAt 1 tag .ok [] { s with intakeClosed := false })) ∧
     (∀ c : ChuteId,
       exec (.intakeMask 1 tag c.val) s =
         .next (doneAt 1 tag .ok []
           (modifyChute c (fun k => if k.masked then k else { closing k with masked := true }) s))) ∧
     exec (.intakeCloseAll 1 tag) s =
       .next (doneAt 1 tag .ok []
         { s with
           intakeClosed := true
           chutes := if s.intakeClosed then s.chutes else s.chutes.map closing })) ∧
  ∀ (tag : Nat) (c : ChuteId) (k : Option LinkId) (s : State), ReadyLink s 1 → s.store.valid = true →
    s.claims.resources.get (hatchResource c) = .held 1 k → (s.chutes.get c).state = .fault →
    let queued := (s.chutes.get c).queue
    let stranded (r : Record) : Record := { r with state := .stranded, compartment := none }
    let cleared : State :=
      { s with
        register :=
          { s.register with
            records := s.register.records.map fun r => if r.number ∈ queued then stranded r else r }
        chutes := s.chutes.set c { s.chutes.get c with state := .idle, hold := none, queue := [] } }
    exec (.clearChute 1 tag c.val) s =
      .next (doneAt 1 tag .ok
        (queued.filterMap fun n =>
          (s.register.records.find? fun x => x.number == n).map fun r => .custody (stranded r))
        (if queued = [] then cleared else raise .stranded cleared))

/-! ## The check station -/

/-- R68, R69, R70: the arbiter of an IDLE station grants the service queue first; without it, the first throat that has
a bag and whose chute is not in FAULT, in fixed mode from throat 0 and in rotating mode from the throat after the last
served one: the head leaves its queue, its record becomes CHECKING, the station loads it, and a throat grant writes the
last-served throat. Without such a requester, or in any other state of the station, nothing changes. -/
def Obligations.ArbiterGrantsTheHead : Prop :=
  ∀ s : State,
    let ready (c : ChuteId) : Prop := (s.chutes.get c).state ≠ .fault ∧ (s.chutes.get c).queue ≠ []
    let granted (c : ChuteId) (n : Nat) (rest : List Nat) : State :=
      modifyChute c (fun k => { k with queue := rest })
        (modifyRecord n (fun r => { r with state := .checking })
          { s with
            station :=
              { s.station with
                lastServed := c, state := .loading n (.throat c) (s.store.params.loadTimeout * 1000) } })
    (s.station.state = .idle →
      (∀ n rest, s.station.service = n :: rest →
        arbitrate s =
          modifyRecord n (fun r => { r with state := .checking })
            { s with
              station :=
                { s.station with
                  service := rest, state := .loading n .service (s.store.params.loadTimeout * 1000) } }) ∧
      (s.station.service = [] → s.store.params.priority = .rotating →
        ∀ (k : Fin 4) n rest,
          (∀ j : Fin 4, j < k → ¬ ready (s.station.lastServed + 1 + j)) →
          (s.chutes.get (s.station.lastServed + 1 + k)).state ≠ .fault →
          (s.chutes.get (s.station.lastServed + 1 + k)).queue = n :: rest →
          arbitrate s = granted (s.station.lastServed + 1 + k) n rest) ∧
      (s.station.service = [] → s.store.params.priority = .fixed →
        ∀ (c : ChuteId) n rest,
          (∀ j : ChuteId, j < c → ¬ ready j) →
          (s.chutes.get c).state ≠ .fault → (s.chutes.get c).queue = n :: rest →
          arbitrate s = granted c n rest) ∧
      (s.station.service = [] → (∀ c : ChuteId, ¬ ready c) → arbitrate s = s)) ∧
    (s.station.state ≠ .idle → arbitrate s = s)

/-- R74: a presence report in LOADING starts the settle timer and the first read attempt with the parameters in force;
in any other state it is ignored. -/
def Obligations.PresenceStartsMeasuring : Prop :=
  ∀ s : State,
    (∀ n src ms, s.station.state = .loading n src ms →
      exec .presenceReport s =
        .next { s with
                station :=
                  { s.station with
                    state := .measuring n src
                      { settle := .running s.store.params.settleDelay, made := 0,
                        allowed := s.store.params.readAttempts, reads := .attempt 250 } } }) ∧
    ((∀ n src ms, s.station.state ≠ .loading n src ms) → exec .presenceReport s = .next s)

/-- R60, R75, R112: the load timer's expiry strands the record and leaves the station IDLE for the next grant; the chute
of a throat source enters FAULT, returning a reservation it holds. The transit timer's expiry strands the record and
puts the station in FAULT, raising STATION_FAULT and STRANDED. -/
def Obligations.StationTimeoutsStrandTheBag : Prop :=
  ∀ (n ms : Nat) (s : State),
    let lost : State := modifyRecord n (fun r => { r with state := .stranded, compartment := none }) s
    let idle : State := { lost with station := { s.station with state := .idle } }
    (s.station.state = .loading n .service ms →
      exec .loadTimeout s = .next (arbitrate (raise .stranded idle))) ∧
    (∀ c : ChuteId, s.station.state = .loading n (.throat c) ms →
      ((∃ d w p, (s.chutes.get c).state = .drum d w p) →
        exec .loadTimeout s =
          .next (arbitrate (raise .chuteFault
            (modifyChute c (fun k => { k with state := .fault, hold := none })
              (returnReservation (raise .stranded idle)))))) ∧
      ((s.chutes.get c).state = .fault → exec .loadTimeout s = .next (arbitrate (raise .stranded idle))) ∧
      ((s.chutes.get c).state ≠ .fault → (∀ d w p, (s.chutes.get c).state ≠ .drum d w p) →
        exec .loadTimeout s =
          .next (arbitrate (raise .chuteFault
            (modifyChute c (fun k => { k with state := .fault, hold := none }) (raise .stranded idle)))))) ∧
    ∀ (src : Source) (c : CompartmentId), s.station.state = .placing n src c ms →
      exec .transitTimeout s =
        .next (testLowMarks (raise .stranded (raise .stationFault
          { lost with station := { s.station with state := .fault } })))

/-- R77, R78, R79, R80, R81, R82, R83, R84, R86, R98, R103, R104, R105, R106: the settle timer's expiry latches the
weight, at most 30,000, and a read attempt ends with a tag, with a next attempt or with FAILED; a tag of 0 or above
999,999,999 is a failure. Taken first, each leaves the station MEASURING and changes nothing else. The second of the
two, whichever it is, evaluates the record: the tag, advice and weight tests and the check rules give its reasons, its
fields and its marks, and an OPEN entry it finds is matched. The accepted pass or the held pass then gives it a
compartment, with NO_SPACE where a record without reasons came to the held pass, or the station is blocked. What a test
reads where a depositor's slot or an advice entry is missing, in states no run reaches, is log entry 18 (DESIGN
CHOICE). -/
def Obligations.MeasurementsLeadToEvaluation : Prop :=
  ∀ (n : Nat) (src : Source) (m : Measuring) (s : State),
    s.station.state = .measuring n src m →
    let measured (m' : Measuring) : State :=
      { s with station := { s.station with state := .measuring n src m' } }
    let evaluates (i : Instr) (w : Nat) (res : ReadResult) : Prop :=
      ∀ r : Record, RecordAt s n r →
        ∃ t r', exec i s = .next t ∧ RecordAt t n r' ∧ EvaluatedAs s r w res r' t.advices ∧
          PlacedAs s n src r r' t ∧
          t.register.records = s.register.records.map (fun x => if x.number = n then r' else x) ∧
          t.cabinet.compartments = s.cabinet.compartments ∧
          (∀ l, t.links.get l = { s.links.get l with notices := (t.links.get l).notices }) ∧
          t = { s with register := { s.register with records := t.register.records }, advices := t.advices,
                       station := { s.station with state := t.station.state }
                       cabinet := { s.cabinet with compartments := t.cabinet.compartments
                                                   lowStandard := t.cabinet.lowStandard
                                                   lowCoin := t.cabinet.lowCoin }
                       links := t.links }
    let fails (i : Instr) : Prop :=
      i = .tagReadAttemptTimeout ∨ i = .tagReadReport .failure ∨
        ∃ t broken, (t = 0 ∨ 999999999 < t) ∧ i = .tagReadReport (.tag t broken)
    (∀ b, m.reads = .attempt b → ∀ i, fails i → m.made + 1 < m.allowed →
      exec i s = .next (measured { m with made := m.made + 1, reads := .attempt 250 })) ∧
    (∀ a, m.settle = .running a →
      (∀ b, m.reads = .attempt b →
        (∀ w, exec (.settleTimerExpiry w) s = .next (measured { m with settle := .latched (min w 30000) })) ∧
        (∀ t broken, 1 ≤ t → t ≤ 999999999 →
          exec (.tagReadReport (.tag t broken)) s =
            .next (measured { m with made := m.made + 1, reads := .done (.tag t broken) })) ∧
        ∀ i, fails i → m.allowed ≤ m.made + 1 →
          exec i s = .next (measured { m with made := m.made + 1, reads := .done .failed })) ∧
      ∀ (w : Nat) (res : ReadResult), m.reads = .done res → evaluates (.settleTimerExpiry w) (min w 30000) res) ∧
    ∀ w b, m.settle = .latched w → m.reads = .attempt b →
      (∀ t broken, 1 ≤ t → t ≤ 999999999 → evaluates (.tagReadReport (.tag t broken)) w (.tag t broken)) ∧
      ∀ i, fails i → m.allowed ≤ m.made + 1 → evaluates i w .failed

/-- R73, R89: RE-ENTER by the holder of STATION puts a STRANDED, MISSING or OUT_TELLER record at the tail of the service
queue as WAITING; CLEAR STATION by that holder strands a blocked record and returns its copy, or ends a FAULT. The
arbiter may then grant the next bag. The frame of the command: log entry 2. -/
def Obligations.StationHolderReEntersAndClears : Prop :=
  ∀ (tag : Nat) (k : Option LinkId) (s : State), ReadyLink s 1 → s.store.valid = true →
    s.claims.resources.get 4 = .held 1 k →
    (∀ n r, n ≠ 0 → RecordAt s n r → (r.state = .stranded ∨ r.state = .missing ∨ r.state = .outTeller) →
      s.station.service.length < 4 →
      exec (.reEnter 1 tag n) s =
        .next (doneAt 1 tag .ok []
          (arbitrate
            (modifyRecord n (fun r => { r with state := .waiting })
              { s with station := { s.station with service := s.station.service ++ [n] } })))) ∧
    (s.station.state = .fault →
      exec (.clearStation 1 tag) s =
        .next (doneAt 1 tag .ok [] (arbitrate { s with station := { s.station with state := .idle } }))) ∧
    ∀ n src r, s.station.state = .blocked n src → RecordAt s n r →
      exec (.clearStation 1 tag) s =
        .next (doneAt 1 tag .ok [.custody { r with state := .stranded, compartment := none }]
          (arbitrate (raise .stranded
            (modifyRecord n (fun r => { r with state := .stranded, compartment := none })
              { s with station := { s.station with state := .idle } }))))

/-! ## The cabinet -/

/-- R97, R110, R111, R205: an entry report at the expected compartment stores a record without reasons: it joins the
tail of the list, sets the attribute of an empty compartment and counts as accepted, and every BAGS program counts it,
reporting at its n. A record with reasons there, and any record at another compartment, becomes HELD where it arrived,
MISROUTED added in the second case; it counts as held and HELD_BAG is raised. The station goes on to the next bag. -/
def Obligations.ArrivalsAreStoredOrHeld : Prop :=
  ∀ (n : Nat) (src : Source) (target c : CompartmentId) (ms : Nat) (tag : Option Nat) (r : Record) (s : State),
    s.station.state = .placing n src target ms → RecordAt s n r →
    let joined (h : Compartment → Option Handling) : State :=
      modifyBox c
        (fun b =>
          { b with
            occupants := b.occupants ++ [n]
            overfull := decide (capacity b.cls < b.occupants.length + 1)
            handling := h b })
        { entryBase c s with station := { s.station with state := .idle } }
    let held (f : Record → Record) : State :=
      arbitrate (testLowMarks (raise .heldBag
        (countUp (fun k => { k with held := upTo65535 k.held }) (modifyRecord n f (joined Compartment.handling)))))
    let stored : State :=
      arbitrate (testLowMarks
        (countUp (fun k => { k with accepted := upTo65535 k.accepted })
          (modifyRecord n (fun r => { r with state := .stored })
            (joined fun b => if b.occupants = [] then r.handling else b.handling))))
    (c = target → r.reasons = 0 →
      exec (.entryReport c tag) s =
        .next { stored with links := stored.links.map (Link.bagCounted (sourceBytes stored)) }) ∧
    (c = target → r.reasons ≠ 0 →
      exec (.entryReport c tag) s = .next (held fun r => { r with state := .held })) ∧
    (c ≠ target →
      exec (.entryReport c tag) s =
        .next (held fun r => { r with state := .held, compartment := some c, reasons := r.reasons ||| 0x200#12 }))

/-- R113: an entry report while no record is ROUTING is noted in the foreign-tag list or the further count, and raises
FOREIGN; no record and no occupant list changes. -/
def Obligations.ForeignEntryIsNoted : Prop :=
  ∀ (c : CompartmentId) (tag : Option Nat) (s : State),
    (∀ n src target ms, s.station.state ≠ .placing n src target ms) →
    exec (.entryReport c tag) s =
      .next (raise .foreign
        (modifyBox c
          (fun b =>
            match tag with
            | none => { b with furtherForeign := satInc 255 b.furtherForeign }
            | some t =>
              if t ∈ b.foreign then b
              else if b.foreign.length < 4 then { b with foreign := b.foreign ++ [t] }
              else { b with furtherForeign := satInc 255 b.furtherForeign })
          (entryBase c s)))

/-- R85, R98, R100, R101: SET COMPARTMENT writes the class and the service flag, SET RESERVE the reserve count, SET RULE
a check rule whole; every other compartment, count and rule and every occupant list is kept. The frame of the command:
log entry 2. -/
def Obligations.LayoutAndRuleCommandsWriteTheirCell : Prop :=
  ∀ (tag : Nat) (s : State), ReadyLink s 1 → s.store.valid = true →
    let kept (t : State) : Prop :=
      ((∀ n src, s.station.state ≠ .blocked n src) → t.register = s.register ∧ t.station = s.station) ∧
      t = { s with register := t.register, station := t.station, cabinet := t.cabinet, links := t.links }
    (∀ (c : CompartmentId) (cls : BoxClass) (service : Bool),
      let b := s.cabinet.compartments.get c
      (b.cls = cls ∨ b.occupants = [] ∧ pendingAt s c = 0 ∧ b.door.operation = none ∧
        reserveOf s b.cls < (boxesOf s b.cls).length) →
      (service = true ∨ pendingAt s c = 0) →
      ∃ t, exec (.setCompartment 1 tag c.val (if cls = .standard then 1 else 2) (if service then 1 else 2)) s =
          .next (doneAt 1 tag .ok [] t) ∧
        t.cabinet.compartments.get c =
          { b with cls := cls, inService := service, handling := if b.cls = cls then b.handling else none,
                   overfull := if b.cls = cls then b.overfull else false } ∧
        (∀ i, i ≠ c → t.cabinet.compartments.get i = s.cabinet.compartments.get i) ∧
        t.cabinet.reserveStandard = s.cabinet.reserveStandard ∧ t.cabinet.reserveCoin = s.cabinet.reserveCoin ∧
        kept t) ∧
    (∀ n : Nat, n ≤ 12 → n ≤ (boxesOf s .standard).length →
      ∃ t, exec (.setReserve 1 tag 1 n) s = .next (doneAt 1 tag .ok [] t) ∧ t.cabinet.reserveStandard = n ∧
        t.cabinet.reserveCoin = s.cabinet.reserveCoin ∧ t.cabinet.compartments = s.cabinet.compartments ∧ kept t) ∧
    (∀ n : Nat, n ≤ 4 → n ≤ (boxesOf s .coin).length →
      ∃ t, exec (.setReserve 1 tag 2 n) s = .next (doneAt 1 tag .ok [] t) ∧ t.cabinet.reserveCoin = n ∧
        t.cabinet.reserveStandard = s.cabinet.reserveStandard ∧
        t.cabinet.compartments = s.cabinet.compartments ∧ kept t) ∧
    ∀ (i : Fin 8) (q : Quantity) (c : Condition) (reference : Int) (a : RuleAction),
      -2147483648 ≤ reference → reference ≤ 2147483647 →
      exec (.setRule 1 tag (i.val + 1)
          ⟨quantities.idxOf q + 1, conditions.idxOf c + 1, reference, ruleActions.idxOf a + 1⟩) s =
        .next (doneAt 1 tag .ok []
          { s with station := { s.station with rules := s.station.rules.set i ⟨q, c, reference, a⟩ } })

/-! ## Claims -/

/-- R118, R119: SAFE STATE LOCKED makes every bank RETAINED and leaves STATION and the hatches, OPEN only writes the
safe state, and RETAIN of ALL makes every resource RETAINED; each ends with the claims summary. The frame of the
command: log entry 2. -/
def Obligations.SafeStateLocksTheBanks : Prop :=
  ∀ (tag : Nat) (s : State), ReadyLink s 0 →
    let ends (i : Instr) (t : State) : Prop :=
      exec i s = .next (doneAt 0 tag .ok [.claims t.claims s.store.params.cosignWindow] t)
    let kept (t : State) : Prop :=
      (∀ c : CompartmentId, (t.cabinet.compartments.get c).occupants = (s.cabinet.compartments.get c).occupants) ∧
      ((∀ n src, s.station.state ≠ .blocked n src) → t.register = s.register ∧ t.station = s.station) ∧
      t = { s with register := t.register, station := t.station, cabinet := t.cabinet, claims := t.claims,
                   links := t.links }
    ends (.safeState 0 tag 2) { s with claims := { s.claims with safe := .opened } } ∧
    (s.claims.safe = .locked → ends (.safeState 0 tag 1) s) ∧
    (s.claims.safe = .opened →
      ∃ t, ends (.safeState 0 tag 1) t ∧ t.claims.safe = .locked ∧
        (∀ r : Fin 9, r.val < 4 → t.claims.resources.get r = .retained) ∧
        (∀ r : Fin 9, 4 ≤ r.val → t.claims.resources.get r = s.claims.resources.get r) ∧ kept t) ∧
    ∃ t, ends (.retain 0 tag none) t ∧ t.claims.safe = s.claims.safe ∧
      (∀ r : Fin 9, t.claims.resources.get r = .retained) ∧ kept t

/-- R119, R120, R121, R122, R123, R124: RELINQUISH frees, CLAIM waits for a cosign on a bank and holds STATION or a
hatch, COSIGN by another link makes the hold and by the claimant is refused WRONG_STATE, YIELD frees and RETAIN retains,
each the one resource named, with the claims summary; the expiry of a bank's cosign window frees the bank and raises
COSIGN_LAPSED, and changes nothing at a bank that does not wait. The frame of the command: log entry 2. -/
def Obligations.ClaimsMoveTheHolder : Prop :=
  (∀ (l : LinkId) (tag : Nat) (r : Fin 9) (s : State), ReadyLink s l →
     let became (h : Holder) : Host.Outcome State Fault Refusal :=
       let claims : Claims := { s.claims with resources := s.claims.resources.set r h }
       .next (doneAt l tag .ok [.claims claims s.store.params.cosignWindow] { s with claims := claims })
     (l = 0 → s.claims.resources.get r = .retained → (4 ≤ r.val ∨ s.claims.safe = .opened) →
       exec (.relinquish l tag (r.val + 1)) s = became .free) ∧
     (l ≠ 0 → s.claims.resources.get r = .free →
       exec (.claim l tag (r.val + 1)) s =
         became (if r.val < 4 then .cosignWait l (s.store.params.cosignWindow * 1000) else .held l none)) ∧
     (∀ h ms, h ≠ l → s.claims.resources.get r = .cosignWait h ms →
       exec (.cosign l tag (r.val + 1)) s = became (.held h (some l))) ∧
     (∀ ms, s.claims.resources.get r = .cosignWait l ms →
       exec (.cosign l tag (r.val + 1)) s =
         .next (doneAt l tag .wrongState [.claims s.claims s.store.params.cosignWindow] s)) ∧
     (∀ ms, l ≠ 0 → s.claims.resources.get r = .cosignWait l ms →
       exec (.yieldResource l tag (r.val + 1)) s = became .free) ∧
     (∀ k, l ≠ 0 → 4 ≤ r.val → s.claims.resources.get r = .held l k →
       exec (.yieldResource l tag (r.val + 1)) s = became .free) ∧
     (l = 0 → ((∀ h k, s.claims.resources.get r ≠ .held h k) ∨ 4 ≤ r.val) →
       exec (.retain l tag (some (r.val + 1))) s = became .retained)) ∧
  ∀ (b : Fin 4) (s : State),
    (∀ l ms, s.claims.resources.get (bankResource b) = .cosignWait l ms →
      exec (.cosignWindowExpiry b) s =
        .next (raise .cosignLapsed
          { s with claims := { s.claims with resources := s.claims.resources.set (bankResource b) .free } })) ∧
    ((∀ l ms, s.claims.resources.get (bankResource b) ≠ .cosignWait l ms) →
      exec (.cosignWindowExpiry b) s = .next s)

/-- R107, R118, R119, R123, R127, R131, R144, R193, R197: a bank that leaves HELD, by a RETAIN of it or of ALL, by its
holder's YIELD, by SAFE STATE LOCKED or by the fall of its holder's present line, relocks its UNLOCKED doors whose
operations its holder gave and ends those operations ABANDONED, with one retry of a blocked allocation; every other door
is kept. SAFE STATE LOCKED also raises OPEN_AT_LOCK once for each OPEN door. On an ABSENT link a fall has the same
effects (log entry 30, DESIGN CHOICE). The frame of the command: log entry 2. -/
def Obligations.LostBankRelocksItsDoors : Prop :=
  ∀ (tag : Nat) (s : State),
    let held (c : CompartmentId) (l : LinkId) : Bool := holds s l (bankResource (bankOf c))
    let ends (l : LinkId) (i : Instr) (claims : Claims) (t : State) : Prop :=
      exec i s = .next (doneAt l tag .ok [.claims claims s.store.params.cosignWindow] t)
    let became (b : Fin 4) (h : Holder) : Claims :=
      { s.claims with resources := s.claims.resources.set (bankResource b) h }
    (∀ b : Fin 4, ReadyLink s 0 →
      ends 0 (.retain 0 tag (some (b.val + 1))) (became b .retained)
        (relockedOnce (fun c l => bankOf c == b && held c l) { s with claims := became b .retained })) ∧
    (∀ (b : Fin 4) (h : LinkId) (k : Option LinkId), h ≠ 0 → ReadyLink s h →
      s.claims.resources.get (bankResource b) = .held h k →
      ends h (.yieldResource h tag (b.val + 1)) (became b .free)
        (relockedOnce (fun c l => bankOf c == b && l == h) { s with claims := became b .free })) ∧
    (ReadyLink s 0 →
      let claims : Claims := { s.claims with resources := .fill .retained }
      ends 0 (.retain 0 tag none) claims (relockedOnce held { s with claims := claims })) ∧
    (ReadyLink s 0 → s.claims.safe = .opened →
      let claims : Claims :=
        { safe := .locked
          resources := .tabulate fun r => if r.val < 4 then .retained else s.claims.resources.get r }
      ends 0 (.safeState 0 tag 1) claims
        (raiseTimes .openAtLock (s.cabinet.compartments.cells.countP fun b => b.door.isOpen)
          (relockedOnce held { s with claims := claims }))) ∧
    ∀ l : LinkId, l ≠ 0 →
      let k := s.links.get l
      let fallen : State :=
        { s with
          cabinet :=
            { s.cabinet with
              compartments := s.cabinet.compartments.map fun b => { b with door := b.door.discarded l } }
          claims :=
            { s.claims with
              resources := s.claims.resources.map fun h =>
                match h with
                | .held x k => if x = l then .retained else .held x k
                | .cosignWait x ms => if x = l then .retained else .cosignWait x ms
                | x => x }
          links := s.links.set l
            { k with
              present := false
              phase := .ready
              receiver := .hunting
              held := []
              queue := []
              long := k.long.map fun c => { c with delivery := .discard } } }
      exec (.presentLineFall l) s = .next (relockedOnce (fun c x => x == l && held c x) fallen)

/-! ## Windows and doors -/

/-- R136, R138: SET WINDOW replaces the window named whole and ends with the ten windows as they then stand, the four
protection windows first, without fields changing nothing; a protection window of base 36 with mask 0 matches
compartment 36 alone, with mask 3 compartments 36 to 39, of base 0 with mask 15 compartments 0 to 15, of base 32 with
mask 15 compartments 32 to 47, and with mask 63 every one. The frame of the command: log entry 2. -/
def Obligations.WindowsAreReplacedAndMatched : Prop :=
  (∀ (tag : Nat) (s : State), ReadyLink s 0 → s.store.valid = true →
    let ends (i : Instr) (w : Windows) : Prop :=
      exec i s =
        .next (doneAt 0 tag .ok
          (((List.finRange 4).map fun i => .protection i (w.protection.get i)) ++
            (List.finRange 6).map fun i => .detection i (w.detection.get i))
          { s with windows := w })
    (∀ (i : Fin 4) (on : Bool) (base ignore links ops : Nat), base < 64 → ignore < 64 → links < 8 → ops < 8 →
      ends (.setWindow 0 tag 1 i.val (some (.protection (if on then 1 else 2) base ignore links ops)))
        { s.windows with
          protection :=
            s.windows.protection.set i ⟨on, .ofNat 6 base, .ofNat 6 ignore, .ofNat 3 links, .ofNat 3 ops⟩ }) ∧
    (∀ (i : Fin 6) (on : Bool) (lo hi tlo thi links ops : Nat), lo ≤ hi → hi < 48 → tlo ≤ 86399 → thi ≤ 86399 →
      links < 8 → ops < 8 →
      ends (.setWindow 0 tag 2 i.val (some (.detection (if on then 1 else 2) lo hi tlo thi links ops)))
        { s.windows with
          detection := s.windows.detection.set i ⟨on, lo, hi, tlo, thi, .ofNat 3 links, .ofNat 3 ops⟩ }) ∧
    (∀ i : Fin 4, ends (.setWindow 0 tag 1 i.val none) s.windows) ∧
    ∀ i : Fin 6, ends (.setWindow 0 tag 2 i.val none) s.windows) ∧
  ∀ c : CompartmentId,
    let hit (base ignore : BitVec 6) : Bool :=
      ProtectionWindow.test { enabled := true, base, ignore, links := 7, operations := 7 } 1 .openDoor c
    (hit 36 0 = true ↔ c.val = 36) ∧ (hit 36 3 = true ↔ 36 ≤ c.val ∧ c.val ≤ 39) ∧
    (hit 0 15 = true ↔ c.val ≤ 15) ∧ (hit 32 15 = true ↔ 32 ≤ c.val) ∧ hit 0 63 = true

/-- R141, R142: an opening is regular from UNLOCKED and forced from LOCKED, where it raises DOOR_FORCED and keeps an
operation whose scan ran; a closing starts a scan; other reports are ignored. -/
def Obligations.DoorSensorMovesTheDoor : Prop :=
  ∀ (c : CompartmentId) (s : State),
    let timer := some (s.store.params.leftOpenTime * 1000)
    let door := (s.cabinet.compartments.get c).door
    (∀ op ms, door = .unlocked op ms →
      exec (.doorOpened c) s = .next (setDoor c (.opened false (some op) timer) s) ∧
      exec (.doorClosed c) s = .next s) ∧
    (door = .locked →
      exec (.doorOpened c) s = .next (raise .doorForced (setDoor c (.opened true (some .unattended) timer) s)) ∧
      exec (.doorClosed c) s = .next s) ∧
    (∀ op ms, door = .scanning op ms →
      exec (.doorOpened c) s = .next (raise .doorForced (setDoor c (.opened true (some op) timer) s)) ∧
      exec (.doorClosed c) s = .next s) ∧
    ∀ forced op left, door = .opened forced op left →
      exec (.doorOpened c) s = .next s ∧
      exec (.doorClosed c) s =
        .next (testLowMarks (retry (setDoor c (.scanning (op.getD .unattended) 2000) s)))

/-- R143: the door-left-open timer's expiry in OPEN raises DOOR_LEFT_OPEN once and changes nothing else; stopped, it
does not expire again while the door stays open, and an entry to OPEN starts it. -/
def Obligations.DoorLeftOpenIsRaisedOnce : Prop :=
  ∀ (c : CompartmentId) (forced : Bool) (op : Option DoorOp) (s : State),
    (∀ ms, (s.cabinet.compartments.get c).door = .opened forced op (some ms) →
      exec (.doorLeftOpenTimerExpiry c) s = .next (raise .doorLeftOpen (setDoor c (.opened forced op none) s))) ∧
    ((s.cabinet.compartments.get c).door = .opened forced op none →
      exec (.doorLeftOpenTimerExpiry c) s = .next s ∧ exec (.doorOpened c) s = .next s) ∧
    ((∀ f o m, (s.cabinet.compartments.get c).door ≠ .opened f o m) →
      ∃ t f o, exec (.doorOpened c) s = .next t ∧
        (t.cabinet.compartments.get c).door = .opened f o (some (s.store.params.leftOpenTime * 1000)))

/-- R140, R193: the unlock window's expiry relocks the door and ends the operation NOT_OPENED without result records:
the issuing link sends its DONE and is READY, or, with delivery DISCARD, sends nothing. -/
def Obligations.UnlockWindowEndsNotOpened : Prop :=
  ∀ (c : CompartmentId) (l : LinkId) (work : DoorWork) (d : Delivery) (ms : Nat) (cmd : Command) (tag : Nat)
    (delivery : Delivery) (s : State),
    (s.cabinet.compartments.get c).door = .unlocked (.command l work d) ms →
    (s.links.get l).long = some ⟨cmd, tag, delivery⟩ →
    ∃ t, exec (.unlockWindowExpiry c) s = .next t ∧
      t.cabinet.compartments =
        s.cabinet.compartments.set c { s.cabinet.compartments.get c with door := .locked } ∧
      (delivery = .deliver →
        t.links.get l =
          { s.links.get l with
            long := none
            phase := .ready
            held := []
            queue := (s.links.get l).queue ++ [.done tag .notOpened 0 false]
            notices := (t.links.get l).notices }) ∧
      (delivery = .discard →
        t.links.get l = { s.links.get l with long := none, notices := (t.links.get l).notices }) ∧
      (∀ i, i ≠ l → t.links.get i = { s.links.get i with notices := (t.links.get i).notices }) ∧
      ((∀ n src, s.station.state ≠ .blocked n src) → t.register = s.register ∧ t.station = s.station) ∧
      t = { s with register := t.register, station := t.station, cabinet := t.cabinet, links := t.links }

/-- R136, R137, R140, R146, R147, R148: OPEN and HAND OUT under a cosigned hold, and INVENTORY without one, are accepted
on a LOCKED door with nothing in flight or pending and no protection window in their way: the door is UNLOCKED or its
scan starts, the link is EXECUTING, and where a detection window matches, the affected records are marked and DETECTED
is raised. The frame of the command: log entry 2. -/
def Obligations.DoorCommandsAreAccepted : Prop :=
  ∀ (l : LinkId) (tag : Nat) (c : CompartmentId) (s : State),
    ReadyLink s l → (s.links.get l).long = none → s.store.valid = true →
    (s.cabinet.compartments.get c).door = .locked → pendingAt s c = 0 →
    let held := s.claims.safe = .opened ∧ ∃ k, s.claims.resources.get (bankResource (bankOf c)) = .held l k
    let unlock (work : DoorWork) : State → State :=
      setDoor c (.unlocked (.command l work .deliver) (s.store.params.unlockWindow * 1000))
    let marked (g : Gate) (ns : List Nat) : State :=
      if isDetected s l g c then
        raise .detected
          { s with
            register :=
              { s.register with
                records := s.register.records.map fun r =>
                  if r.number ∈ ns then { r with detected := true } else r } }
      else s
    (l = 1 → held → isProtectedFrom s l .openDoor c = false →
      exec (.openDoor l tag c.val) s =
        .next (executingAt l tag .openDoor
          (unlock .openDoor (marked .openDoor (s.cabinet.compartments.get c).occupants)))) ∧
    (l = 1 → isProtectedFrom s l .inventory c = false →
      exec (.inventory l tag c.val) s =
        .next (executingAt l tag .inventory
          (setDoor c (.scanning (.command l .inventory .deliver) 2000)
            (marked .inventory (s.cabinet.compartments.get c).occupants)))) ∧
    ∀ ns : List Nat, l ≠ 0 → held → isProtectedFrom s l .handOut c = false →
      1 ≤ ns.length → ns.length ≤ 4 → ns.Nodup →
      (∀ n ∈ ns, n ≠ 0 ∧ ∃ r, RecordAt s n r ∧
        r.compartment = some c ∧ r.number = n ∧
        (r.state = .stored ∨ l = 1 ∧ r.state = .held) ∧
        (l = 3 → r.handling = some .through ∧ ∃ m, s.manifest.current = some m ∧ n ∈ m.entries)) →
      exec (.handOut l tag c.val ns) s =
        .next (executingAt l tag .handOut
          (unlock (.handOut (if l = 3 then .carrier else .teller) ns) (marked .handOut ns)))

/-- R128, R136, R146, R147: OPEN is refused PROTECTED by a window, raising PROTECTED; SAFE_LOCKED while the safe is
LOCKED; NOT_CLAIMED without the hold; BUSY with an operation in flight; each leaves everything else as it was. The frame
of the command: log entry 2. -/
def Obligations.OpenIsRefusedInOrder : Prop :=
  ∀ (tag : Nat) (c : CompartmentId) (s : State),
    ReadyLink s 1 → (s.links.get 1).long = none → s.store.valid = true →
    let refused (code : CompletionCode) (t : State) : Host.Outcome State Fault Refusal :=
      .next (doneAt 1 tag code [] t)
    let shielded := isProtectedFrom s 1 .openDoor c
    (shielded = true → exec (.openDoor 1 tag c.val) s = refused .isProtected (raise .isProtected s)) ∧
    (shielded = false → s.claims.safe = .locked → exec (.openDoor 1 tag c.val) s = refused .safeLocked s) ∧
    (shielded = false → s.claims.safe = .opened →
      (∀ k, s.claims.resources.get (bankResource (bankOf c)) ≠ .held 1 k) →
      exec (.openDoor 1 tag c.val) s = refused .notClaimed s) ∧
    (shielded = false → s.claims.safe = .opened →
      (∃ k, s.claims.resources.get (bankResource (bankOf c)) = .held 1 k) →
      (s.cabinet.compartments.get c).door.operation ≠ none →
      exec (.openDoor 1 tag c.val) s = refused .busy s)

/-- R151, R154, R156: at the end of a scan that is no HAND OUT's and whose tags recover no record, every occupant whose
tag was not read is MISSING and out of the list, every other record but a blocked bag's is kept, the first four tags
that no occupant carries, in the order of the operand (log entry 17), replace the foreign list, those beyond them the
further count, and the door is LOCKED with no operation. Custody numbers are distinct (StepKeepsTheRegister). -/
def Obligations.ScanFindsAbsentBagsMissing : Prop :=
  ∀ (c : CompartmentId) (op : DoorOp) (ms : Nat) (tags : List Nat) (s : State),
    (s.register.records.map Record.number).Nodup →
    (s.cabinet.compartments.get c).door = .scanning op ms →
    (∀ dest ns l d, op ≠ .command l (.handOut dest ns) d) →
    (∀ g ∈ tags, 1 ≤ g ∧ g ≤ 999999999) → tags.Nodup →
    let occupants := (s.cabinet.compartments.get c).occupants
    (∀ r ∈ s.register.records, ∀ g ∈ tags, r.tag = some g →
      r.number ∈ occupants ∨ r.state = .counted ∨ r.state = .dispatched ∨ r.state = .void) →
    let lost (r : Record) : Prop := r.number ∈ occupants ∧ ∃ g, r.tag = some g ∧ g ∉ tags
    let loose := tags.filter fun g => decide (∀ r ∈ s.register.records, r.tag = some g → r.number ∉ occupants)
    let atStation (r : Record) : Prop := ∃ src, s.station.state = .blocked r.number src
    ∃ t, exec (.scanDone c tags) s = .next t ∧
      (∀ r ∈ s.register.records, ¬ atStation r → lost r →
        { r with state := .missing, compartment := none } ∈ t.register.records) ∧
      (∀ r ∈ s.register.records, ¬ atStation r → ¬ lost r → r ∈ t.register.records) ∧
      (∀ n, n ∈ (t.cabinet.compartments.get c).occupants ↔
        n ∈ occupants ∧ ∀ r ∈ s.register.records, r.number = n → ¬ lost r) ∧
      (t.cabinet.compartments.get c).door = .locked ∧
      (t.cabinet.compartments.get c).foreign = loose.take 4 ∧
      (t.cabinet.compartments.get c).furtherForeign = min 255 (loose.length - 4) ∧
      (∀ i, i ≠ c → t.cabinet.compartments.get i = s.cabinet.compartments.get i) ∧
      t.register.current = s.register.current ∧
      t = { s with register := { s.register with records := t.register.records }, station := t.station,
                   cabinet := t.cabinet, manifest := t.manifest, links := t.links }

/-- R153, R156: a scan of a compartment without occupants that reads the tag of a STRANDED, MISSING, OUT_TELLER,
OUT_CARRIER, STORED or HELD record kept elsewhere, DUPLICATE not among its reasons, recovers it: it is HELD here with
RECOVERED added, joins the list and leaves the manifest. Where the scan is that of a HAND OUT that names the record,
that it is recovered here is the model's reading of R152 and R153 (DEDUCED, log entry 28). -/
def Obligations.ScanRecoversAKnownBag : Prop :=
  ∀ (c : CompartmentId) (op : DoorOp) (ms g : Nat) (r : Record) (s : State),
    (s.cabinet.compartments.get c).door = .scanning op ms → (s.cabinet.compartments.get c).occupants = [] →
    1 ≤ g → g ≤ 999999999 → RecordAt s r.number r → r.tag = some g → r.reasons.getLsbD 3 = false →
    (∀ x ∈ s.register.records, x.tag = some g → x.number = r.number) →
    (r.state = .stranded ∨ r.state = .missing ∨ r.state = .outTeller ∨ r.state = .outCarrier ∨
      r.state = .stored ∨ r.state = .held) →
    r.compartment ≠ some c → (∀ src, s.station.state ≠ .blocked r.number src) →
    ∃ t, exec (.scanDone c [g]) s = .next t ∧
      RecordAt t r.number { r with state := .held, compartment := some c, reasons := r.reasons ||| 0x400#12 } ∧
      (t.cabinet.compartments.get c).occupants = [r.number] ∧ (t.cabinet.compartments.get c).foreign = [] ∧
      (t.cabinet.compartments.get c).door = .locked ∧
      (∀ m, t.manifest.current = some m → r.number ∉ m.entries) ∧
      (∀ x, r.compartment = some x → r.number ∉ (t.cabinet.compartments.get x).occupants) ∧
      t = { s with register := { s.register with records := t.register.records }, station := t.station,
                   cabinet := t.cabinet, manifest := t.manifest, links := t.links }

/-- R151, R155, R156, R193: a HAND OUT of one tagged occupant whose tag the scan does not read ends TAKEN: OUT_TELLER
for a teller, counted as handed out, and OUT_CARRIER for a carrier whose manifest still holds the record; the issuing
link's result record is that classification with the record's copy. -/
def Obligations.HandOutTakesTheNamedBag : Prop :=
  ∀ (c : CompartmentId) (l : LinkId) (dest : Destination) (d : Delivery) (ms n g tag : Nat) (r : Record) (s : State),
    (s.cabinet.compartments.get c).door = .scanning (.command l (.handOut dest [n]) d) ms →
    (s.cabinet.compartments.get c).occupants = [n] →
    RecordAt s n r → r.tag = some g →
    (∀ src, s.station.state ≠ .blocked n src) →
    (dest = .carrier → ∃ m, s.manifest.current = some m ∧ n ∈ m.entries) →
    (s.links.get l).long = some ⟨.handOut, tag, .deliver⟩ →
    let gone : Record :=
      { r with state := (if dest = .teller then .outTeller else .outCarrier), compartment := none }
    ∃ t, exec (.scanDone c []) s = .next t ∧ RecordAt t n gone ∧
      t.cabinet.compartments.get c =
        { s.cabinet.compartments.get c with
          occupants := [], handling := none, overfull := false, foreign := [], furtherForeign := 0,
          door := .locked } ∧
      (∀ i, i ≠ c → t.cabinet.compartments.get i = s.cabinet.compartments.get i) ∧
      t.links.get l =
        { s.links.get l with
          long := none
          phase := .result
          held := [.classified .taken n (some gone)]
          queue := (s.links.get l).queue ++ [.done tag .ok 1 false]
          notices := (t.links.get l).notices } ∧
      t.register.current =
        (if dest = .teller then
          { s.register.current with handedToTeller := upTo65535 s.register.current.handedToTeller }
         else s.register.current) ∧
      (dest = .carrier → t.manifest = s.manifest) ∧
      t = { s with register := { s.register with records := t.register.records, current := t.register.current },
                   station := t.station, cabinet := t.cabinet, manifest := t.manifest, links := t.links }

/-! ## Count results and manifests -/

/-- R41, R158, R159, R160, R161: COUNT RESULT of an OUT_TELLER record makes it COUNTED with its count, forms the
difference against the advice it names and the verdict by the tolerance, carries the amounts into the depositor's totals
and counts it; a discrepant one also counts and raises DISCREPANCY. It is refused ALREADY_COUNTED for a COUNTED record,
WRONG_STATE in any other state but OUT_TELLER and NOT_FOUND without a record. The frame of the command: log entry 2. -/
def Obligations.CountResultClosesTheRecord : Prop :=
  ∀ (tag n notes coins : Nat) (s : State), ReadyLink s 2 → s.store.valid = true → n ≠ 0 → notes ≤ 999999999 →
    coins ≤ 999999999 →
    (∀ (r : Record) (e : Depositor) (a : Option Advice), RecordAt s n r → r.state = .outTeller →
      s.roster.get r.depositor = some e →
      a = (match r.advice with
        | some i => s.advices.entries.find? (fun x => x.index == i)
        | none => none) →
      let difference : Option Int := a.map fun x => ((notes : Int) + coins) - ((x.notes : Int) + x.coins)
      let tolerance := s.store.params.countTolerance
      let discrepant : Prop := ∃ v, difference = some v ∧ (tolerance : Int) < |v|
      let counted : Record := { r with state := .counted, count := some { notes, coins, difference } }
      ∃ t verdict, exec (.countResult 2 tag n notes coins) s =
          .next (doneAt 2 tag .ok [.counted counted verdict tolerance] t) ∧
        RecordAt t n counted ∧ (∀ x ∈ s.register.records, x.number ≠ n → x ∈ t.register.records) ∧
        (verdict = .unadvised ↔ a = none) ∧ (verdict = .discrepant ↔ discrepant) ∧
        (discrepant →
          t.register.current =
            { s.register.current with
              counted := upTo65535 s.register.current.counted
              discrepancies := upTo65535 s.register.current.discrepancies } ∧
          t.links = (raise .discrepancy s).links) ∧
        (¬ discrepant →
          t.register.current = { s.register.current with counted := upTo65535 s.register.current.counted } ∧
          t.links = s.links) ∧
        (∃ f, t.roster = s.roster.set r.depositor (some f) ∧
          f = { e with counted := min 4294967295 (e.counted + (notes + coins)), declared := f.declared,
                       saturation := f.saturation, discrepancies := f.discrepancies } ∧
          (a = none → f.declared = min 4294967295 e.declared) ∧
          (∀ x, a = some x → f.declared = min 4294967295 (e.declared + (x.notes + x.coins))) ∧
          (discrepant → f.discrepancies = upTo65535 e.discrepancies) ∧
          (¬ discrepant → f.discrepancies = e.discrepancies)) ∧
        t = { s with register := { s.register with records := t.register.records, current := t.register.current },
                     roster := t.roster, links := t.links }) ∧
    ((∀ r ∈ s.register.records, r.number ≠ n) →
      exec (.countResult 2 tag n notes coins) s = .next (doneAt 2 tag .notFound [] s)) ∧
    ∀ r, RecordAt s n r →
      (r.state = .counted →
        exec (.countResult 2 tag n notes coins) s = .next (doneAt 2 tag .alreadyCounted [] s)) ∧
      (r.state ≠ .counted → r.state ≠ .outTeller →
        exec (.countResult 2 tag n notes coins) s = .next (doneAt 2 tag .wrongState [] s))

/-- R164, R165, R166, R169, R170, R171: MANIFEST OPEN, ADD, DROP and ABANDON change the manifest alone, and end with the
summary first; MANIFEST CLOSE with every entry OUT_CARRIER makes each DISPATCHED under the manifest's number, counts it,
removes the manifest and returns their copies in list order; with an entry that is not, it is refused INCOMPLETE,
returns each such entry in list order and changes nothing; MANIFEST ABANDON with an entry OUT_CARRIER is refused
WRONG_STATE, returns each such entry and changes nothing. What the records after a refused ABANDON carry, and their list
order, is log entry 27 (DESIGN CHOICE). The frame of the command: log entry 2. -/
def Obligations.ManifestCommandsRunTheManifest : Prop :=
  (∀ (tag : Nat) (s : State), ReadyLink s 3 → s.store.valid = true →
     let ends (i : Instr) (m : Manifests) : Prop :=
       exec i s = .next (doneAt 3 tag .ok [manifestSummary { s with manifest := m }] { s with manifest := m })
     (s.manifest.current = none →
       ends (.manifestOpen 3 tag)
         { counter := if s.manifest.counter < 9999 then s.manifest.counter + 1 else 1
           current := some
             { number := s.manifest.counter
               openedAt := if s.clock.validity = .valid then some (s.clock.date, s.clock.seconds) else none
               entries := [] } }) ∧
     ∀ m, s.manifest.current = some m →
       (∀ n r, n ≠ 0 → RecordAt s n r → n ∉ m.entries →
         r.state = .stored → r.handling = some .through → m.entries.length < 24 →
         ends (.manifestAdd 3 tag n)
           { s.manifest with current := some { m with entries := m.entries ++ [n] } }) ∧
       (∀ n r, n ≠ 0 → RecordAt s n r → n ∈ m.entries →
         r.state ≠ .outCarrier →
         ends (.manifestDrop 3 tag n)
           { s.manifest with current := some { m with entries := m.entries.filter (· != n) } }) ∧
       ((∀ n ∈ m.entries, ∀ r, RecordAt s n r → r.state ≠ .outCarrier) →
         ends (.manifestAbandon 3 tag) { s.manifest with current := none })) ∧
  ∀ (tag : Nat) (m : Manifest) (s : State), ReadyLink s 3 → s.store.valid = true → s.manifest.current = some m →
    let listed (test : Record → Bool) (show' : Record → ResultRecord) : List ResultRecord :=
      m.entries.filterMap fun n =>
        ((s.register.records.find? fun x => x.number == n).filter test).map show'
    let entry (r : Record) : ResultRecord :=
      .manifestEntry ⟨r.number, r.state, if r.state = .stored then r.compartment else none⟩
    ((∀ n ∈ m.entries, ∃ r, RecordAt s n r ∧ r.state = .outCarrier) →
      ∃ t, exec (.manifestClose 3 tag) s = .next (doneAt 3 tag .ok
          (manifestSummary t ::
            listed (fun _ => true) fun r => .custody { r with state := .dispatched, manifest := some m.number }) t) ∧
        t.register.records =
          s.register.records.map (fun r =>
            if r.number ∈ m.entries then { r with state := .dispatched, manifest := some m.number } else r) ∧
        t.register.current =
          { s.register.current with
            dispatched := m.entries.foldl (fun k _ => upTo65535 k) s.register.current.dispatched } ∧
        t.manifest = { s.manifest with current := none } ∧
        t = { s with register := { s.register with records := t.register.records, current := t.register.current },
                     manifest := t.manifest }) ∧
    ((∃ n ∈ m.entries, ∃ r, RecordAt s n r ∧ r.state ≠ .outCarrier) →
      exec (.manifestClose 3 tag) s =
        .next (doneAt 3 tag .incomplete (manifestSummary s :: listed (fun r => r.state != .outCarrier) entry) s)) ∧
    ((∃ n ∈ m.entries, ∃ r, RecordAt s n r ∧ r.state = .outCarrier) →
      exec (.manifestAbandon 3 tag) s =
        .next (doneAt 3 tag .wrongState (manifestSummary s :: listed (fun r => r.state == .outCarrier) entry) s))

/-! ## The register, the advice table, the roster and the rules -/

/-- R12, R15, R16: CLEAR REASON removes a reason that Table 9 lets it remove from a HELD record, which becomes STORED
with its last one, and is refused WRONG_STATE for the others; VOID makes a STRANDED or MISSING record VOID and is
refused WRONG_STATE in any other state; every other field and record is kept. The frame of the command: log entry 2. -/
def Obligations.RecordCommandsChangeOneRecord : Prop :=
  ∀ (tag n : Nat) (r : Record) (s : State), ReadyLink s 1 → s.store.valid = true → RecordAt s n r →
    (∀ k : Fin 12, k ≠ 0 → k ≠ 1 → k ≠ 3 → r.state = .held → r.reasons.getLsbD k.val = true →
      exec (.clearReason 1 tag n (k.val + 1)) s =
        .next (doneAt 1 tag .ok []
          (modifyRecord n
            (fun r =>
              let rest := r.reasons &&& ~~~(1#12 <<< k.val)
              { r with reasons := rest, state := if r.state = .held ∧ rest = 0 then .stored else r.state }) s))) ∧
    (∀ k : Fin 12, k = 0 ∨ k = 1 ∨ k = 3 ∨ r.state ≠ .held →
      exec (.clearReason 1 tag n (k.val + 1)) s = .next (doneAt 1 tag .wrongState [] s)) ∧
    (r.state = .stranded ∨ r.state = .missing →
      exec (.voidRecord 1 tag n) s =
        .next (doneAt 1 tag .ok [] (modifyRecord n (fun r => { r with state := .void }) s))) ∧
    (r.state ≠ .stranded → r.state ≠ .missing →
      exec (.voidRecord 1 tag n) s = .next (doneAt 1 tag .wrongState [] s))

/-- R17, R18: PURGE puts the platform link in EXECUTING with a walk from the lowest number. At the end of the walk no
terminal record that it had not passed and that arrived by its date is left, every other record stays, the advices those
records name leave the table, and PURGE ends: its link's DONE is queued, or dropped under DISCARD. That PURGE_WALK_END
itself visits every record past the cursor, in its one event, is the model's choice (log entry 4, DESIGN CHOICE).
Custody numbers are distinct (StepKeepsTheRegister). An end where no walk runs changes nothing (log entry 30, DESIGN
CHOICE). The frame of the command: log entry 2. -/
def Obligations.PurgeRemovesTerminalRecords : Prop :=
  (∀ (tag d : Nat) (s : State), ReadyLink s 1 → (s.links.get 1).long = none → s.store.valid = true →
    exec (.purge 1 tag d) s =
      .next (executingAt 1 tag .purge { s with register := { s.register with walk := some ⟨d, 0⟩ } })) ∧
  (∀ s : State, s.register.walk = none → exec .purgeWalkEnd s = .next s) ∧
  ∀ (w : Walk) (tag : Nat) (delivery : Delivery) (s : State),
    (s.register.records.map Record.number).Nodup → s.register.walk = some w →
    (s.links.get 1).long = some ⟨.purge, tag, delivery⟩ →
    let removed (r : Record) : Bool :=
      decide (w.visited < r.number) && decide (r.arrivalDate ≤ w.date) &&
        (r.state == .counted || r.state == .dispatched || r.state == .void)
    ∃ t, exec .purgeWalkEnd s = .next t ∧
      t.register = { s.register with records := s.register.records.filter (fun r => !removed r), walk := none } ∧
      t.advices =
        { s.advices with
          entries := s.advices.entries.filter fun a =>
            !s.register.records.any fun r => removed r && r.advice == some a.index } ∧
      (delivery = .deliver →
        t.links = s.links.set 1
          { s.links.get 1 with
            long := none
            phase := .ready
            held := []
            queue := (s.links.get 1).queue ++ [.done tag .ok 0 false] }) ∧
      (delivery = .discard → t.links = s.links.set 1 { s.links.get 1 with long := none }) ∧
      t = { s with register := t.register, advices := t.advices, links := t.links }

/-- R28, R29, R30, R32: LOAD ADVICE gives one outcome for each of its one to eight entries; an entry of a known
depositor with a new tag enters the lowest empty slot at the end of the load order, and is matched to a HELD record that
carries the tag with UNADVISED, which loses the reason; a tag already present is refused DUPLICATE. CANCEL ADVICE
removes an OPEN entry and is refused WRONG_STATE for a MATCHED one. The frame of the command: log entry 2. -/
def Obligations.AdviceCommandsChangeTheTable : Prop :=
  ∀ (tag : Nat) (s : State), ReadyLink s 1 → s.store.valid = true →
    (∀ es : List AdviceArgs, 1 ≤ es.length → es.length ≤ 8 →
      ∃ t rs, exec (.loadAdvice 1 tag es) s = .next (doneAt 1 tag .ok rs t) ∧ rs.length = es.length ∧
        t = { s with register := { s.register with records := t.register.records },
                     advices := { s.advices with entries := t.advices.entries } }) ∧
    (∀ (g : Nat) (d : DepositorId) (date notes coins : Nat) (weight : Option Nat) (kind : Option BagKind)
      (handling : Handling),
      1 ≤ g → g ≤ 999999999 → date ≤ 65535 → notes ≤ 999999999 → coins ≤ 999999999 →
      (∀ w ∈ weight, 1 ≤ w ∧ w ≤ 30000) →
      let load : Instr :=
        .loadAdvice 1 tag
          [⟨g, d.val, date, notes, coins, weight, (kind.map fun k => k.code).getD 3, handling.code⟩]
      ((∃ a ∈ s.advices.entries, a.tag = g) →
        exec load s = .next (doneAt 1 tag .ok [.adviceOutcome 1 g .duplicate none] s)) ∧
      ∀ (e : Depositor) (i : Nat), s.roster.get d = some e → (∀ a ∈ s.advices.entries, a.tag ≠ g) →
        i < 384 → (∀ a ∈ s.advices.entries, a.index ≠ i) → (∀ j < i, ∃ a ∈ s.advices.entries, a.index = j) →
        let entered (matched : Option Nat) : State :=
          { s with
            advices :=
              { s.advices with
                entries := s.advices.entries ++
                  [{ index := i, tag := g, depositor := d, date, notes, coins, weight, kind := kind.getD e.kind,
                     handling, matched }] } }
        ((∀ r ∈ s.register.records, r.state = .held → r.tag = some g → r.reasons.getLsbD 1 = false) →
          exec load s = .next (doneAt 1 tag .ok [.adviceOutcome 1 g .ok (some (i, none))] (entered none))) ∧
        ∀ r : Record,
          (s.register.records.find? fun x => x.state == .held && x.tag == some g && x.reasons.getLsbD 1) = some r →
          exec load s =
            .next (doneAt 1 tag .ok [.adviceOutcome 1 g .ok (some (i, some r.number))]
              (modifyRecord r.number
                (fun x =>
                  let rest := x.reasons &&& ~~~0x002#12
                  { x with
                    advice := some i
                    kind := some (kind.getD e.kind)
                    handling := some handling
                    reasons := rest
                    state := if x.state = .held ∧ rest = 0 then .stored else x.state }) (entered (some r.number))))) ∧
    ∀ (g : Nat) (a : Advice), 1 ≤ g → g ≤ 999999999 →
      (s.advices.entries.find? fun x => x.tag == g) = some a →
      (a.matched = none →
        exec (.cancelAdvice 1 tag g) s =
          .next (doneAt 1 tag .ok []
            { s with
              advices := { s.advices with entries := s.advices.entries.filter fun x => x.index != a.index } })) ∧
      (a.matched ≠ none → exec (.cancelAdvice 1 tag g) s = .next (doneAt 1 tag .wrongState [] s))

/-- R42, R43: SET DEPOSITOR fills an empty slot with its allowance remaining, or writes the fields of an occupied one,
keeping its arrivals, with its remaining count moved by the change of the allowance and its totals cleared or kept as
chosen, where 1 for clear and 2 for keep is the model's choice (log entry 10, DESIGN CHOICE); a credential of another
slot is refused DUPLICATE. REMOVE DEPOSITOR empties a slot that nothing names. The frame of the command: log entry 2. -/
def Obligations.DepositorCommandsChangeOneSlot : Prop :=
  ∀ (tag : Nat) (d : DepositorId) (s : State), ReadyLink s 1 → s.store.valid = true →
    (∀ (credential permissions allowance : Nat) (active coin clear : Bool), 1 ≤ credential →
      credential ≤ 9999999999 → permissions < 16 → 1 ≤ allowance → allowance ≤ 20 →
      let set : Instr :=
        .setDepositor 1 tag d.val
          ⟨credential, if active then 1 else 2, permissions, allowance, if coin then 2 else 1, if clear then 1 else 2⟩
      let state : DepositorState := if active then .active else .suspended
      let kind : BagKind := if coin then .coin else .note
      ((∀ i e, i ≠ d → s.roster.get i = some e → e.credential ≠ credential) →
        (s.roster.get d = none →
          exec set s =
            .next (doneAt 1 tag .ok []
              { s with
                roster := s.roster.set d
                  (some
                    { credential, state, permissions := .ofNat 4 permissions, allowance, remaining := allowance,
                      arrivals := 0, kind, declared := 0, counted := 0, saturation := 0,
                      discrepancies := 0 }) })) ∧
        ∀ e, s.roster.get d = some e →
          let moved : Depositor :=
            { e with
              credential, state, kind, allowance, permissions := .ofNat 4 permissions
              remaining :=
                if e.allowance < allowance then e.remaining + (allowance - e.allowance)
                else if allowance < e.allowance then min e.remaining allowance
                else e.remaining }
          exec set s =
            .next (doneAt 1 tag .ok []
              { s with
                roster := s.roster.set d
                  (some
                    (if clear then { moved with declared := 0, counted := 0, saturation := 0, discrepancies := 0 }
                     else moved)) })) ∧
      ((∃ i e, i ≠ d ∧ s.roster.get i = some e ∧ e.credential = credential ∧
          ∀ j x, s.roster.get j = some x → x.credential = credential → j = i) →
        exec set s = .next (doneAt 1 tag .duplicate [] s))) ∧
    ((∃ e, s.roster.get d = some e) →
      (∀ (c : ChuteId) (ms : Nat) (p : Bool),
        (s.chutes.get c).state ≠ .session d ms ∧ (s.chutes.get c).state ≠ .drum d ms p) →
      (∀ r ∈ s.register.records, r.depositor = d →
        r.state = .counted ∨ r.state = .dispatched ∨ r.state = .void) →
      (∀ a ∈ s.advices.entries, a.depositor ≠ d) →
      exec (.removeDepositor 1 tag d.val) s = .next (doneAt 1 tag .ok [] { s with roster := s.roster.set d none }))
end

