-- ==== Sys2Proof/Laws/Table.lean ====
section
/-! SUPPORT. What reading a table gives after each way of making or changing one. -/

namespace Sys2Proof

variable {α β : Type} {n : Nat}

/-- Two tables with the same cells are the same table. -/
theorem Table.ext_cells {t u : Table α n} (h : t.cells = u.cells) : t = u := by
  cases t; cases u; cases h; rfl

/-- Two tables that read the same at every number are the same table. -/
theorem Table.ext_get {t u : Table α n} (h : ∀ i, t.get i = u.get i) : t = u := by
  apply Table.ext_cells
  apply List.ext_getElem (by rw [t.size, u.size])
  intro i h1 _
  exact h ⟨i, by rw [← t.size]; exact h1⟩

/-- The cell just set. -/
@[simp] theorem Table.get_set_self (t : Table α n) (i : Fin n) (a : α) : (t.set i a).get i = a := by
  simp [Table.get, Table.set]

/-- Any other cell. -/
theorem Table.get_set_ne (t : Table α n) {i j : Fin n} (a : α) (h : j ≠ i) : (t.set i a).get j = t.get j := by
  have : i.val ≠ j.val := fun e => h (Fin.ext e.symm)
  simp [Table.get, Table.set, List.getElem_set_ne this]

/-- A cell after a cell was set. -/
theorem Table.get_set (t : Table α n) (i j : Fin n) (a : α) :
    (t.set i a).get j = if j = i then a else t.get j := by
  by_cases h : j = i
  · subst h; simp
  · simp [h, Table.get_set_ne]

/-- Setting one cell twice. -/
@[simp] theorem Table.set_set (t : Table α n) (i : Fin n) (a b : α) : (t.set i a).set i b = t.set i b := by
  apply Table.ext_cells; simp [Table.set]

/-- Setting a cell to what it holds. -/
@[simp] theorem Table.set_get_self (t : Table α n) (i : Fin n) : t.set i (t.get i) = t := by
  apply Table.ext_get; intro j; rw [Table.get_set]; split
  · next h => rw [h]
  · rfl

/-- A cell of a mapped table. -/
@[simp] theorem Table.get_map (f : α → β) (t : Table α n) (i : Fin n) : (t.map f).get i = f (t.get i) := by
  simp [Table.get, Table.map]

/-- A table mapped after a cell was set. -/
theorem Table.map_set (f : α → β) (t : Table α n) (i : Fin n) (a : α) :
    (t.set i a).map f = (t.map f).set i (f a) := by
  apply Table.ext_cells; simp [Table.set, Table.map, List.map_set]

/-- A cell of a tabulated table. -/
@[simp] theorem Table.get_tabulate (f : Fin n → α) (i : Fin n) : (Table.tabulate f).get i = f i := by
  simp [Table.get, Table.tabulate]

/-- A cell of a filled table. -/
@[simp] theorem Table.get_fill (a : α) (i : Fin n) : (Table.fill a : Table α n).get i = a := by
  simp [Table.get, Table.fill]

/-- A cell is among the cells. -/
theorem Table.get_mem (t : Table α n) (i : Fin n) : t.get i ∈ t.cells := List.getElem_mem _

/-- Every cell has a number. -/
theorem Table.exists_get_of_mem {t : Table α n} {a : α} (h : a ∈ t.cells) : ∃ i, t.get i = a := by
  obtain ⟨k, hk, e⟩ := List.getElem_of_mem h
  exact ⟨⟨k, by rw [← t.size]; exact hk⟩, e⟩

end Sys2Proof
end

