-- ==== Sys2Proof/Laws/State.lean ====
section
/-! SUPPORT. What each shared operation leaves alone: one lemma for each operation and each block it does not
touch, so that no proof unfolds a record update for it. -/

namespace Sys2Proof.Machine

variable {s : State}

section
variable {n : Nat} {f : Record → Record}
@[simp] theorem modifyRecord_advices : (modifyRecord n f s).advices = s.advices := rfl
@[simp] theorem modifyRecord_roster : (modifyRecord n f s).roster = s.roster := rfl
@[simp] theorem modifyRecord_chutes : (modifyRecord n f s).chutes = s.chutes := rfl
@[simp] theorem modifyRecord_intakeClosed : (modifyRecord n f s).intakeClosed = s.intakeClosed := rfl
@[simp] theorem modifyRecord_station : (modifyRecord n f s).station = s.station := rfl
@[simp] theorem modifyRecord_cabinet : (modifyRecord n f s).cabinet = s.cabinet := rfl
@[simp] theorem modifyRecord_claims : (modifyRecord n f s).claims = s.claims := rfl
@[simp] theorem modifyRecord_windows : (modifyRecord n f s).windows = s.windows := rfl
@[simp] theorem modifyRecord_manifest : (modifyRecord n f s).manifest = s.manifest := rfl
@[simp] theorem modifyRecord_clock : (modifyRecord n f s).clock = s.clock := rfl
@[simp] theorem modifyRecord_store : (modifyRecord n f s).store = s.store := rfl
@[simp] theorem modifyRecord_links : (modifyRecord n f s).links = s.links := rfl
@[simp] theorem modifyRecord_pending : (modifyRecord n f s).pending = s.pending := rfl
end

section
variable {f : DateCounts → DateCounts}
@[simp] theorem countUp_advices : (countUp f s).advices = s.advices := rfl
@[simp] theorem countUp_roster : (countUp f s).roster = s.roster := rfl
@[simp] theorem countUp_chutes : (countUp f s).chutes = s.chutes := rfl
@[simp] theorem countUp_intakeClosed : (countUp f s).intakeClosed = s.intakeClosed := rfl
@[simp] theorem countUp_station : (countUp f s).station = s.station := rfl
@[simp] theorem countUp_cabinet : (countUp f s).cabinet = s.cabinet := rfl
@[simp] theorem countUp_claims : (countUp f s).claims = s.claims := rfl
@[simp] theorem countUp_windows : (countUp f s).windows = s.windows := rfl
@[simp] theorem countUp_manifest : (countUp f s).manifest = s.manifest := rfl
@[simp] theorem countUp_clock : (countUp f s).clock = s.clock := rfl
@[simp] theorem countUp_store : (countUp f s).store = s.store := rfl
@[simp] theorem countUp_links : (countUp f s).links = s.links := rfl
@[simp] theorem countUp_pending : (countUp f s).pending = s.pending := rfl
end

section
@[simp] theorem returnReservation_advices : (returnReservation s).advices = s.advices := rfl
@[simp] theorem returnReservation_roster : (returnReservation s).roster = s.roster := rfl
@[simp] theorem returnReservation_chutes : (returnReservation s).chutes = s.chutes := rfl
@[simp] theorem returnReservation_intakeClosed : (returnReservation s).intakeClosed = s.intakeClosed := rfl
@[simp] theorem returnReservation_station : (returnReservation s).station = s.station := rfl
@[simp] theorem returnReservation_cabinet : (returnReservation s).cabinet = s.cabinet := rfl
@[simp] theorem returnReservation_claims : (returnReservation s).claims = s.claims := rfl
@[simp] theorem returnReservation_windows : (returnReservation s).windows = s.windows := rfl
@[simp] theorem returnReservation_manifest : (returnReservation s).manifest = s.manifest := rfl
@[simp] theorem returnReservation_clock : (returnReservation s).clock = s.clock := rfl
@[simp] theorem returnReservation_store : (returnReservation s).store = s.store := rfl
@[simp] theorem returnReservation_links : (returnReservation s).links = s.links := rfl
@[simp] theorem returnReservation_pending : (returnReservation s).pending = s.pending := rfl
end

section
variable {d : DepositorId} {f : Depositor → Depositor}
@[simp] theorem modifyDepositor_register : (modifyDepositor d f s).register = s.register := rfl
@[simp] theorem modifyDepositor_advices : (modifyDepositor d f s).advices = s.advices := rfl
@[simp] theorem modifyDepositor_chutes : (modifyDepositor d f s).chutes = s.chutes := rfl
@[simp] theorem modifyDepositor_intakeClosed : (modifyDepositor d f s).intakeClosed = s.intakeClosed := rfl
@[simp] theorem modifyDepositor_station : (modifyDepositor d f s).station = s.station := rfl
@[simp] theorem modifyDepositor_cabinet : (modifyDepositor d f s).cabinet = s.cabinet := rfl
@[simp] theorem modifyDepositor_claims : (modifyDepositor d f s).claims = s.claims := rfl
@[simp] theorem modifyDepositor_windows : (modifyDepositor d f s).windows = s.windows := rfl
@[simp] theorem modifyDepositor_manifest : (modifyDepositor d f s).manifest = s.manifest := rfl
@[simp] theorem modifyDepositor_clock : (modifyDepositor d f s).clock = s.clock := rfl
@[simp] theorem modifyDepositor_store : (modifyDepositor d f s).store = s.store := rfl
@[simp] theorem modifyDepositor_links : (modifyDepositor d f s).links = s.links := rfl
@[simp] theorem modifyDepositor_pending : (modifyDepositor d f s).pending = s.pending := rfl
end

section
variable {c : ChuteId} {d : DepositorId} {st : RecordState}
@[simp] theorem createRecord_advices : (createRecord c d st s).advices = s.advices := rfl
@[simp] theorem createRecord_chutes : (createRecord c d st s).chutes = s.chutes := rfl
@[simp] theorem createRecord_intakeClosed : (createRecord c d st s).intakeClosed = s.intakeClosed := rfl
@[simp] theorem createRecord_station : (createRecord c d st s).station = s.station := rfl
@[simp] theorem createRecord_cabinet : (createRecord c d st s).cabinet = s.cabinet := rfl
@[simp] theorem createRecord_claims : (createRecord c d st s).claims = s.claims := rfl
@[simp] theorem createRecord_windows : (createRecord c d st s).windows = s.windows := rfl
@[simp] theorem createRecord_manifest : (createRecord c d st s).manifest = s.manifest := rfl
@[simp] theorem createRecord_clock : (createRecord c d st s).clock = s.clock := rfl
@[simp] theorem createRecord_store : (createRecord c d st s).store = s.store := rfl
@[simp] theorem createRecord_links : (createRecord c d st s).links = s.links := rfl
@[simp] theorem createRecord_pending : (createRecord c d st s).pending = s.pending := rfl
end

section
variable {n : Nat}
@[simp] theorem dropEntry_register : (dropEntry n s).register = s.register := by unfold dropEntry; split <;> rfl
@[simp] theorem dropEntry_advices : (dropEntry n s).advices = s.advices := by unfold dropEntry; split <;> rfl
@[simp] theorem dropEntry_roster : (dropEntry n s).roster = s.roster := by unfold dropEntry; split <;> rfl
@[simp] theorem dropEntry_chutes : (dropEntry n s).chutes = s.chutes := by unfold dropEntry; split <;> rfl
@[simp] theorem dropEntry_intakeClosed : (dropEntry n s).intakeClosed = s.intakeClosed :=
  by unfold dropEntry; split <;> rfl
@[simp] theorem dropEntry_station : (dropEntry n s).station = s.station := by unfold dropEntry; split <;> rfl
@[simp] theorem dropEntry_cabinet : (dropEntry n s).cabinet = s.cabinet := by unfold dropEntry; split <;> rfl
@[simp] theorem dropEntry_claims : (dropEntry n s).claims = s.claims := by unfold dropEntry; split <;> rfl
@[simp] theorem dropEntry_windows : (dropEntry n s).windows = s.windows := by unfold dropEntry; split <;> rfl
@[simp] theorem dropEntry_clock : (dropEntry n s).clock = s.clock := by unfold dropEntry; split <;> rfl
@[simp] theorem dropEntry_store : (dropEntry n s).store = s.store := by unfold dropEntry; split <;> rfl
@[simp] theorem dropEntry_links : (dropEntry n s).links = s.links := by unfold dropEntry; split <;> rfl
@[simp] theorem dropEntry_pending : (dropEntry n s).pending = s.pending := by unfold dropEntry; split <;> rfl
end

section
variable {l : LinkId} {f : Link → Link}
@[simp] theorem modifyLink_register : (modifyLink l f s).register = s.register := rfl
@[simp] theorem modifyLink_advices : (modifyLink l f s).advices = s.advices := rfl
@[simp] theorem modifyLink_roster : (modifyLink l f s).roster = s.roster := rfl
@[simp] theorem modifyLink_chutes : (modifyLink l f s).chutes = s.chutes := rfl
@[simp] theorem modifyLink_intakeClosed : (modifyLink l f s).intakeClosed = s.intakeClosed := rfl
@[simp] theorem modifyLink_station : (modifyLink l f s).station = s.station := rfl
@[simp] theorem modifyLink_cabinet : (modifyLink l f s).cabinet = s.cabinet := rfl
@[simp] theorem modifyLink_claims : (modifyLink l f s).claims = s.claims := rfl
@[simp] theorem modifyLink_windows : (modifyLink l f s).windows = s.windows := rfl
@[simp] theorem modifyLink_manifest : (modifyLink l f s).manifest = s.manifest := rfl
@[simp] theorem modifyLink_clock : (modifyLink l f s).clock = s.clock := rfl
@[simp] theorem modifyLink_store : (modifyLink l f s).store = s.store := rfl
@[simp] theorem modifyLink_pending : (modifyLink l f s).pending = s.pending := rfl
end

section
variable {k : Notice} {m : Nat}
@[simp] theorem raiseTimes_register : (raiseTimes k m s).register = s.register := by unfold raiseTimes; split <;> rfl
@[simp] theorem raiseTimes_advices : (raiseTimes k m s).advices = s.advices := by unfold raiseTimes; split <;> rfl
@[simp] theorem raiseTimes_roster : (raiseTimes k m s).roster = s.roster := by unfold raiseTimes; split <;> rfl
@[simp] theorem raiseTimes_chutes : (raiseTimes k m s).chutes = s.chutes := by unfold raiseTimes; split <;> rfl
@[simp] theorem raiseTimes_intakeClosed : (raiseTimes k m s).intakeClosed = s.intakeClosed :=
  by unfold raiseTimes; split <;> rfl
@[simp] theorem raiseTimes_station : (raiseTimes k m s).station = s.station := by unfold raiseTimes; split <;> rfl
@[simp] theorem raiseTimes_cabinet : (raiseTimes k m s).cabinet = s.cabinet := by unfold raiseTimes; split <;> rfl
@[simp] theorem raiseTimes_claims : (raiseTimes k m s).claims = s.claims := by unfold raiseTimes; split <;> rfl
@[simp] theorem raiseTimes_windows : (raiseTimes k m s).windows = s.windows := by unfold raiseTimes; split <;> rfl
@[simp] theorem raiseTimes_manifest : (raiseTimes k m s).manifest = s.manifest := by unfold raiseTimes; split <;> rfl
@[simp] theorem raiseTimes_clock : (raiseTimes k m s).clock = s.clock := by unfold raiseTimes; split <;> rfl
@[simp] theorem raiseTimes_store : (raiseTimes k m s).store = s.store := by unfold raiseTimes; split <;> rfl
@[simp] theorem raiseTimes_pending : (raiseTimes k m s).pending = s.pending := by unfold raiseTimes; split <;> rfl
end

section
variable {k : Notice}
@[simp] theorem raise_register : (raise k s).register = s.register := rfl
@[simp] theorem raise_advices : (raise k s).advices = s.advices := rfl
@[simp] theorem raise_roster : (raise k s).roster = s.roster := rfl
@[simp] theorem raise_chutes : (raise k s).chutes = s.chutes := rfl
@[simp] theorem raise_intakeClosed : (raise k s).intakeClosed = s.intakeClosed := rfl
@[simp] theorem raise_station : (raise k s).station = s.station := rfl
@[simp] theorem raise_cabinet : (raise k s).cabinet = s.cabinet := rfl
@[simp] theorem raise_claims : (raise k s).claims = s.claims := rfl
@[simp] theorem raise_windows : (raise k s).windows = s.windows := rfl
@[simp] theorem raise_manifest : (raise k s).manifest = s.manifest := rfl
@[simp] theorem raise_clock : (raise k s).clock = s.clock := rfl
@[simp] theorem raise_store : (raise k s).store = s.store := rfl
@[simp] theorem raise_pending : (raise k s).pending = s.pending := rfl
end

section
variable {l : LinkId} {c : CompletionCode} {r : List ResultRecord}
@[simp] theorem endLong_register : (endLong l c r s).register = s.register := rfl
@[simp] theorem endLong_advices : (endLong l c r s).advices = s.advices := rfl
@[simp] theorem endLong_roster : (endLong l c r s).roster = s.roster := rfl
@[simp] theorem endLong_chutes : (endLong l c r s).chutes = s.chutes := rfl
@[simp] theorem endLong_intakeClosed : (endLong l c r s).intakeClosed = s.intakeClosed := rfl
@[simp] theorem endLong_station : (endLong l c r s).station = s.station := rfl
@[simp] theorem endLong_cabinet : (endLong l c r s).cabinet = s.cabinet := rfl
@[simp] theorem endLong_claims : (endLong l c r s).claims = s.claims := rfl
@[simp] theorem endLong_windows : (endLong l c r s).windows = s.windows := rfl
@[simp] theorem endLong_manifest : (endLong l c r s).manifest = s.manifest := rfl
@[simp] theorem endLong_clock : (endLong l c r s).clock = s.clock := rfl
@[simp] theorem endLong_store : (endLong l c r s).store = s.store := rfl
@[simp] theorem endLong_pending : (endLong l c r s).pending = s.pending := rfl
end

section
variable {c : ChuteId} {f : Chute → Chute}
@[simp] theorem modifyChute_register : (modifyChute c f s).register = s.register := rfl
@[simp] theorem modifyChute_advices : (modifyChute c f s).advices = s.advices := rfl
@[simp] theorem modifyChute_roster : (modifyChute c f s).roster = s.roster := rfl
@[simp] theorem modifyChute_intakeClosed : (modifyChute c f s).intakeClosed = s.intakeClosed := rfl
@[simp] theorem modifyChute_station : (modifyChute c f s).station = s.station := rfl
@[simp] theorem modifyChute_cabinet : (modifyChute c f s).cabinet = s.cabinet := rfl
@[simp] theorem modifyChute_claims : (modifyChute c f s).claims = s.claims := rfl
@[simp] theorem modifyChute_windows : (modifyChute c f s).windows = s.windows := rfl
@[simp] theorem modifyChute_manifest : (modifyChute c f s).manifest = s.manifest := rfl
@[simp] theorem modifyChute_clock : (modifyChute c f s).clock = s.clock := rfl
@[simp] theorem modifyChute_store : (modifyChute c f s).store = s.store := rfl
@[simp] theorem modifyChute_links : (modifyChute c f s).links = s.links := rfl
@[simp] theorem modifyChute_pending : (modifyChute c f s).pending = s.pending := rfl
end

section
variable {st : StationState}
@[simp] theorem setStation_register : (setStation st s).register = s.register := rfl
@[simp] theorem setStation_advices : (setStation st s).advices = s.advices := rfl
@[simp] theorem setStation_roster : (setStation st s).roster = s.roster := rfl
@[simp] theorem setStation_chutes : (setStation st s).chutes = s.chutes := rfl
@[simp] theorem setStation_intakeClosed : (setStation st s).intakeClosed = s.intakeClosed := rfl
@[simp] theorem setStation_cabinet : (setStation st s).cabinet = s.cabinet := rfl
@[simp] theorem setStation_claims : (setStation st s).claims = s.claims := rfl
@[simp] theorem setStation_windows : (setStation st s).windows = s.windows := rfl
@[simp] theorem setStation_manifest : (setStation st s).manifest = s.manifest := rfl
@[simp] theorem setStation_clock : (setStation st s).clock = s.clock := rfl
@[simp] theorem setStation_store : (setStation st s).store = s.store := rfl
@[simp] theorem setStation_links : (setStation st s).links = s.links := rfl
@[simp] theorem setStation_pending : (setStation st s).pending = s.pending := rfl
end

section
variable {src : Source}
@[simp] theorem popQueue_register : (popQueue src s).register = s.register := by cases src <;> rfl
@[simp] theorem popQueue_advices : (popQueue src s).advices = s.advices := by cases src <;> rfl
@[simp] theorem popQueue_roster : (popQueue src s).roster = s.roster := by cases src <;> rfl
@[simp] theorem popQueue_intakeClosed : (popQueue src s).intakeClosed = s.intakeClosed := by cases src <;> rfl
@[simp] theorem popQueue_cabinet : (popQueue src s).cabinet = s.cabinet := by cases src <;> rfl
@[simp] theorem popQueue_claims : (popQueue src s).claims = s.claims := by cases src <;> rfl
@[simp] theorem popQueue_windows : (popQueue src s).windows = s.windows := by cases src <;> rfl
@[simp] theorem popQueue_manifest : (popQueue src s).manifest = s.manifest := by cases src <;> rfl
@[simp] theorem popQueue_clock : (popQueue src s).clock = s.clock := by cases src <;> rfl
@[simp] theorem popQueue_store : (popQueue src s).store = s.store := by cases src <;> rfl
@[simp] theorem popQueue_links : (popQueue src s).links = s.links := by cases src <;> rfl
@[simp] theorem popQueue_pending : (popQueue src s).pending = s.pending := by cases src <;> rfl
end

section
variable {c : CompartmentId} {f : Compartment → Compartment}
@[simp] theorem modifyBox_register : (modifyBox c f s).register = s.register := rfl
@[simp] theorem modifyBox_advices : (modifyBox c f s).advices = s.advices := rfl
@[simp] theorem modifyBox_roster : (modifyBox c f s).roster = s.roster := rfl
@[simp] theorem modifyBox_chutes : (modifyBox c f s).chutes = s.chutes := rfl
@[simp] theorem modifyBox_intakeClosed : (modifyBox c f s).intakeClosed = s.intakeClosed := rfl
@[simp] theorem modifyBox_station : (modifyBox c f s).station = s.station := rfl
@[simp] theorem modifyBox_claims : (modifyBox c f s).claims = s.claims := rfl
@[simp] theorem modifyBox_windows : (modifyBox c f s).windows = s.windows := rfl
@[simp] theorem modifyBox_manifest : (modifyBox c f s).manifest = s.manifest := rfl
@[simp] theorem modifyBox_clock : (modifyBox c f s).clock = s.clock := rfl
@[simp] theorem modifyBox_store : (modifyBox c f s).store = s.store := rfl
@[simp] theorem modifyBox_links : (modifyBox c f s).links = s.links := rfl
@[simp] theorem modifyBox_pending : (modifyBox c f s).pending = s.pending := rfl
end

section
variable {c : CompartmentId} {d : Door}
@[simp] theorem setDoor_register : (setDoor c d s).register = s.register := rfl
@[simp] theorem setDoor_advices : (setDoor c d s).advices = s.advices := rfl
@[simp] theorem setDoor_roster : (setDoor c d s).roster = s.roster := rfl
@[simp] theorem setDoor_chutes : (setDoor c d s).chutes = s.chutes := rfl
@[simp] theorem setDoor_intakeClosed : (setDoor c d s).intakeClosed = s.intakeClosed := rfl
@[simp] theorem setDoor_station : (setDoor c d s).station = s.station := rfl
@[simp] theorem setDoor_claims : (setDoor c d s).claims = s.claims := rfl
@[simp] theorem setDoor_windows : (setDoor c d s).windows = s.windows := rfl
@[simp] theorem setDoor_manifest : (setDoor c d s).manifest = s.manifest := rfl
@[simp] theorem setDoor_clock : (setDoor c d s).clock = s.clock := rfl
@[simp] theorem setDoor_store : (setDoor c d s).store = s.store := rfl
@[simp] theorem setDoor_links : (setDoor c d s).links = s.links := rfl
@[simp] theorem setDoor_pending : (setDoor c d s).pending = s.pending := rfl
end

section
variable {c : CompartmentId} {n : Nat}
@[simp] theorem joinBox_register : (joinBox c n s).register = s.register := rfl
@[simp] theorem joinBox_advices : (joinBox c n s).advices = s.advices := rfl
@[simp] theorem joinBox_roster : (joinBox c n s).roster = s.roster := rfl
@[simp] theorem joinBox_chutes : (joinBox c n s).chutes = s.chutes := rfl
@[simp] theorem joinBox_intakeClosed : (joinBox c n s).intakeClosed = s.intakeClosed := rfl
@[simp] theorem joinBox_station : (joinBox c n s).station = s.station := rfl
@[simp] theorem joinBox_claims : (joinBox c n s).claims = s.claims := rfl
@[simp] theorem joinBox_windows : (joinBox c n s).windows = s.windows := rfl
@[simp] theorem joinBox_manifest : (joinBox c n s).manifest = s.manifest := rfl
@[simp] theorem joinBox_clock : (joinBox c n s).clock = s.clock := rfl
@[simp] theorem joinBox_store : (joinBox c n s).store = s.store := rfl
@[simp] theorem joinBox_links : (joinBox c n s).links = s.links := rfl
@[simp] theorem joinBox_pending : (joinBox c n s).pending = s.pending := rfl
end

section
variable {c : CompartmentId} {n : Nat}
@[simp] theorem leaveBox_register : (leaveBox c n s).register = s.register := rfl
@[simp] theorem leaveBox_advices : (leaveBox c n s).advices = s.advices := rfl
@[simp] theorem leaveBox_roster : (leaveBox c n s).roster = s.roster := rfl
@[simp] theorem leaveBox_chutes : (leaveBox c n s).chutes = s.chutes := rfl
@[simp] theorem leaveBox_intakeClosed : (leaveBox c n s).intakeClosed = s.intakeClosed := rfl
@[simp] theorem leaveBox_station : (leaveBox c n s).station = s.station := rfl
@[simp] theorem leaveBox_claims : (leaveBox c n s).claims = s.claims := rfl
@[simp] theorem leaveBox_windows : (leaveBox c n s).windows = s.windows := rfl
@[simp] theorem leaveBox_manifest : (leaveBox c n s).manifest = s.manifest := rfl
@[simp] theorem leaveBox_clock : (leaveBox c n s).clock = s.clock := rfl
@[simp] theorem leaveBox_store : (leaveBox c n s).store = s.store := rfl
@[simp] theorem leaveBox_links : (leaveBox c n s).links = s.links := rfl
@[simp] theorem leaveBox_pending : (leaveBox c n s).pending = s.pending := rfl
end

section
@[simp] theorem withLowMarks_register : (withLowMarks s).register = s.register := rfl
@[simp] theorem withLowMarks_advices : (withLowMarks s).advices = s.advices := rfl
@[simp] theorem withLowMarks_roster : (withLowMarks s).roster = s.roster := rfl
@[simp] theorem withLowMarks_chutes : (withLowMarks s).chutes = s.chutes := rfl
@[simp] theorem withLowMarks_intakeClosed : (withLowMarks s).intakeClosed = s.intakeClosed := rfl
@[simp] theorem withLowMarks_station : (withLowMarks s).station = s.station := rfl
@[simp] theorem withLowMarks_claims : (withLowMarks s).claims = s.claims := rfl
@[simp] theorem withLowMarks_windows : (withLowMarks s).windows = s.windows := rfl
@[simp] theorem withLowMarks_manifest : (withLowMarks s).manifest = s.manifest := rfl
@[simp] theorem withLowMarks_clock : (withLowMarks s).clock = s.clock := rfl
@[simp] theorem withLowMarks_store : (withLowMarks s).store = s.store := rfl
@[simp] theorem withLowMarks_links : (withLowMarks s).links = s.links := rfl
@[simp] theorem withLowMarks_pending : (withLowMarks s).pending = s.pending := rfl
end

section
@[simp] theorem testLowMarks_register : (testLowMarks s).register = s.register := by simp [testLowMarks]
@[simp] theorem testLowMarks_advices : (testLowMarks s).advices = s.advices := by simp [testLowMarks]
@[simp] theorem testLowMarks_roster : (testLowMarks s).roster = s.roster := by simp [testLowMarks]
@[simp] theorem testLowMarks_chutes : (testLowMarks s).chutes = s.chutes := by simp [testLowMarks]
@[simp] theorem testLowMarks_intakeClosed : (testLowMarks s).intakeClosed = s.intakeClosed := by simp [testLowMarks]
@[simp] theorem testLowMarks_station : (testLowMarks s).station = s.station := by simp [testLowMarks]
@[simp] theorem testLowMarks_claims : (testLowMarks s).claims = s.claims := by simp [testLowMarks]
@[simp] theorem testLowMarks_windows : (testLowMarks s).windows = s.windows := by simp [testLowMarks]
@[simp] theorem testLowMarks_manifest : (testLowMarks s).manifest = s.manifest := by simp [testLowMarks]
@[simp] theorem testLowMarks_clock : (testLowMarks s).clock = s.clock := by simp [testLowMarks]
@[simp] theorem testLowMarks_store : (testLowMarks s).store = s.store := by simp [testLowMarks]
@[simp] theorem testLowMarks_pending : (testLowMarks s).pending = s.pending := by simp [testLowMarks]
end

section
variable {r : Fin 9} {h : Holder}
@[simp] theorem setHolder_register : (setHolder r h s).register = s.register := rfl
@[simp] theorem setHolder_advices : (setHolder r h s).advices = s.advices := rfl
@[simp] theorem setHolder_roster : (setHolder r h s).roster = s.roster := rfl
@[simp] theorem setHolder_chutes : (setHolder r h s).chutes = s.chutes := rfl
@[simp] theorem setHolder_intakeClosed : (setHolder r h s).intakeClosed = s.intakeClosed := rfl
@[simp] theorem setHolder_station : (setHolder r h s).station = s.station := rfl
@[simp] theorem setHolder_cabinet : (setHolder r h s).cabinet = s.cabinet := rfl
@[simp] theorem setHolder_windows : (setHolder r h s).windows = s.windows := rfl
@[simp] theorem setHolder_manifest : (setHolder r h s).manifest = s.manifest := rfl
@[simp] theorem setHolder_clock : (setHolder r h s).clock = s.clock := rfl
@[simp] theorem setHolder_store : (setHolder r h s).store = s.store := rfl
@[simp] theorem setHolder_links : (setHolder r h s).links = s.links := rfl
@[simp] theorem setHolder_pending : (setHolder r h s).pending = s.pending := rfl
end

section
variable {op : DoorOp} {c : CompletionCode} {r : List ResultRecord}
@[simp] theorem endDoorOp_register : (endDoorOp op c r s).register = s.register := by cases op <;> rfl
@[simp] theorem endDoorOp_advices : (endDoorOp op c r s).advices = s.advices := by cases op <;> rfl
@[simp] theorem endDoorOp_roster : (endDoorOp op c r s).roster = s.roster := by cases op <;> rfl
@[simp] theorem endDoorOp_chutes : (endDoorOp op c r s).chutes = s.chutes := by cases op <;> rfl
@[simp] theorem endDoorOp_intakeClosed : (endDoorOp op c r s).intakeClosed = s.intakeClosed := by cases op <;> rfl
@[simp] theorem endDoorOp_station : (endDoorOp op c r s).station = s.station := by cases op <;> rfl
@[simp] theorem endDoorOp_cabinet : (endDoorOp op c r s).cabinet = s.cabinet := by cases op <;> rfl
@[simp] theorem endDoorOp_claims : (endDoorOp op c r s).claims = s.claims := by cases op <;> rfl
@[simp] theorem endDoorOp_windows : (endDoorOp op c r s).windows = s.windows := by cases op <;> rfl
@[simp] theorem endDoorOp_manifest : (endDoorOp op c r s).manifest = s.manifest := by cases op <;> rfl
@[simp] theorem endDoorOp_clock : (endDoorOp op c r s).clock = s.clock := by cases op <;> rfl
@[simp] theorem endDoorOp_store : (endDoorOp op c r s).store = s.store := by cases op <;> rfl
@[simp] theorem endDoorOp_pending : (endDoorOp op c r s).pending = s.pending := by cases op <;> rfl
end

section
variable {src : Source}
@[simp] theorem grant_advices : (grant src s).advices = s.advices := by unfold grant; split <;> simp
@[simp] theorem grant_roster : (grant src s).roster = s.roster := by unfold grant; split <;> simp
@[simp] theorem grant_intakeClosed : (grant src s).intakeClosed = s.intakeClosed := by unfold grant; split <;> simp
@[simp] theorem grant_cabinet : (grant src s).cabinet = s.cabinet := by unfold grant; split <;> simp
@[simp] theorem grant_claims : (grant src s).claims = s.claims := by unfold grant; split <;> simp
@[simp] theorem grant_windows : (grant src s).windows = s.windows := by unfold grant; split <;> simp
@[simp] theorem grant_manifest : (grant src s).manifest = s.manifest := by unfold grant; split <;> simp
@[simp] theorem grant_clock : (grant src s).clock = s.clock := by unfold grant; split <;> simp
@[simp] theorem grant_store : (grant src s).store = s.store := by unfold grant; split <;> simp
@[simp] theorem grant_links : (grant src s).links = s.links := by unfold grant; split <;> simp
@[simp] theorem grant_pending : (grant src s).pending = s.pending := by unfold grant; split <;> simp
end

section
@[simp] theorem arbitrate_advices : (arbitrate s).advices = s.advices :=
  by unfold arbitrate; split; split; all_goals simp
@[simp] theorem arbitrate_roster : (arbitrate s).roster = s.roster :=
  by unfold arbitrate; split; split; all_goals simp
@[simp] theorem arbitrate_intakeClosed : (arbitrate s).intakeClosed = s.intakeClosed :=
  by unfold arbitrate; split; split; all_goals simp
@[simp] theorem arbitrate_cabinet : (arbitrate s).cabinet = s.cabinet :=
  by unfold arbitrate; split; split; all_goals simp
@[simp] theorem arbitrate_claims : (arbitrate s).claims = s.claims :=
  by unfold arbitrate; split; split; all_goals simp
@[simp] theorem arbitrate_windows : (arbitrate s).windows = s.windows :=
  by unfold arbitrate; split; split; all_goals simp
@[simp] theorem arbitrate_manifest : (arbitrate s).manifest = s.manifest :=
  by unfold arbitrate; split; split; all_goals simp
@[simp] theorem arbitrate_clock : (arbitrate s).clock = s.clock := by unfold arbitrate; split; split; all_goals simp
@[simp] theorem arbitrate_store : (arbitrate s).store = s.store := by unfold arbitrate; split; split; all_goals simp
@[simp] theorem arbitrate_links : (arbitrate s).links = s.links := by unfold arbitrate; split; split; all_goals simp
@[simp] theorem arbitrate_pending : (arbitrate s).pending = s.pending :=
  by unfold arbitrate; split; split; all_goals simp
end

section
variable {c : ChuteId} {b : Bool}
@[simp] theorem faultChute_advices : (faultChute c b s).advices = s.advices :=
  by unfold faultChute; split <;> cases b <;> simp
@[simp] theorem faultChute_roster : (faultChute c b s).roster = s.roster :=
  by unfold faultChute; split <;> cases b <;> simp
@[simp] theorem faultChute_intakeClosed : (faultChute c b s).intakeClosed = s.intakeClosed :=
  by unfold faultChute; split <;> cases b <;> simp
@[simp] theorem faultChute_station : (faultChute c b s).station = s.station :=
  by unfold faultChute; split <;> cases b <;> simp
@[simp] theorem faultChute_cabinet : (faultChute c b s).cabinet = s.cabinet :=
  by unfold faultChute; split <;> cases b <;> simp
@[simp] theorem faultChute_claims : (faultChute c b s).claims = s.claims :=
  by unfold faultChute; split <;> cases b <;> simp
@[simp] theorem faultChute_windows : (faultChute c b s).windows = s.windows :=
  by unfold faultChute; split <;> cases b <;> simp
@[simp] theorem faultChute_manifest : (faultChute c b s).manifest = s.manifest :=
  by unfold faultChute; split <;> cases b <;> simp
@[simp] theorem faultChute_clock : (faultChute c b s).clock = s.clock :=
  by unfold faultChute; split <;> cases b <;> simp
@[simp] theorem faultChute_store : (faultChute c b s).store = s.store :=
  by unfold faultChute; split <;> cases b <;> simp
@[simp] theorem faultChute_pending : (faultChute c b s).pending = s.pending :=
  by unfold faultChute; split <;> cases b <;> simp
end

section
variable {l : LinkId} {c : CompartmentId}
@[simp] theorem relockDoor_register : (relockDoor l s c).register = s.register :=
  by unfold relockDoor; repeat (split <;> try simp)
@[simp] theorem relockDoor_advices : (relockDoor l s c).advices = s.advices :=
  by unfold relockDoor; repeat (split <;> try simp)
@[simp] theorem relockDoor_roster : (relockDoor l s c).roster = s.roster :=
  by unfold relockDoor; repeat (split <;> try simp)
@[simp] theorem relockDoor_chutes : (relockDoor l s c).chutes = s.chutes :=
  by unfold relockDoor; repeat (split <;> try simp)
@[simp] theorem relockDoor_intakeClosed : (relockDoor l s c).intakeClosed = s.intakeClosed :=
  by unfold relockDoor; repeat (split <;> try simp)
@[simp] theorem relockDoor_station : (relockDoor l s c).station = s.station :=
  by unfold relockDoor; repeat (split <;> try simp)
@[simp] theorem relockDoor_claims : (relockDoor l s c).claims = s.claims :=
  by unfold relockDoor; repeat (split <;> try simp)
@[simp] theorem relockDoor_windows : (relockDoor l s c).windows = s.windows :=
  by unfold relockDoor; repeat (split <;> try simp)
@[simp] theorem relockDoor_manifest : (relockDoor l s c).manifest = s.manifest :=
  by unfold relockDoor; repeat (split <;> try simp)
@[simp] theorem relockDoor_clock : (relockDoor l s c).clock = s.clock :=
  by unfold relockDoor; repeat (split <;> try simp)
@[simp] theorem relockDoor_store : (relockDoor l s c).store = s.store :=
  by unfold relockDoor; repeat (split <;> try simp)
@[simp] theorem relockDoor_pending : (relockDoor l s c).pending = s.pending :=
  by unfold relockDoor; repeat (split <;> try simp)
end

end Sys2Proof.Machine
end

