-- ==== Sys2Proof/Laws/Commands.lean ====
section
/-! SUPPORT. Everything that the taking of a command's frame can do (R192 to R195), said once: the frame is not
heard, or refused by the phase, the role or the form, or answered by the command's owner. -/

namespace Sys2Proof.Machine

variable {s t : State} {l : LinkId} {tag : Nat} {c : Command} {role form : Bool} {owner : State → Answer}

/-! ## Links -/

/-- The changed link reads as changed. -/
@[simp] theorem modifyLink_get_self {f : Link → Link} : (modifyLink l f s).links.get l = f (s.links.get l) := by
  simp [modifyLink]

/-- Every other link reads as before. -/
theorem modifyLink_get_ne {f : Link → Link} {i : LinkId} (h : i ≠ l) :
    (modifyLink l f s).links.get i = s.links.get i := by
  simp [modifyLink, Table.get_set_ne _ _ h]

/-- Two changes of one link are one change. -/
theorem modifyLink_modifyLink {f g : Link → Link} :
    modifyLink l g (modifyLink l f s) = modifyLink l (fun k => g (f k)) s := by
  simp [modifyLink]

/-- A changed link as a replaced one. -/
theorem modifyLink_eq_withLink {f : Link → Link} : modifyLink l f s = withLink l (f (s.links.get l)) s := rfl

/-- Raising a notice and changing another part of a link are made in either order. -/
theorem raiseTimes_modifyLink {k : Notice} {m : Nat} {f : Link → Link}
    (h : ∀ x : Link, Link.raised k m (f x) = f (Link.raised k m x)) :
    raiseTimes k m (modifyLink l f s) = modifyLink l f (raiseTimes k m s) := by
  unfold raiseTimes
  split
  · rfl
  · simp [modifyLink, Table.map_set, h]

/-- The state with a link's frame received whole, before anything is done with it. -/
def received (l : LinkId) (s : State) : State := modifyLink l Link.receivedWhole s

/-- A received frame and a raised notice come in either order. -/
theorem raiseTimes_received {k : Notice} {m : Nat} :
    raiseTimes k m (received l s) = received l (raiseTimes k m s) :=
  raiseTimes_modifyLink fun _ => rfl

/-- A received frame and a raised notice come in either order. -/
theorem raise_received {k : Notice} : raise k (received l s) = received l (raise k s) := raiseTimes_received

/-! ## The outcomes of a frame -/

/-- A link that takes a frame hears it. -/
theorem TakesFrames.hears (h : TakesFrames s l) : (s.links.get l).hears = true := by
  simp only [Link.hears, Bool.and_eq_true, bne_iff_ne, ne_eq]
  exact h

/-- A link that is ABSENT or in LINE_LOW hears nothing. -/
theorem hears_eq_false (h : (s.links.get l).present = false ∨ (s.links.get l).receiver = .lineLow) :
    (s.links.get l).hears = false := by
  simp only [Link.hears, Bool.and_eq_false_iff, bne_eq_false_iff_eq]
  exact h

/-- R186, R197: a link that hears nothing takes no command. -/
theorem takeCommand_deaf (h : (s.links.get l).hears = false) : takeCommand l tag c role form owner s = s := by
  simp [takeCommand, State.link, h]

/-- R193: in EXECUTING a command is refused. -/
theorem takeCommand_executing (h : TakesFrames s l) (hp : (s.links.get l).phase = .executing) :
    takeCommand l tag c role form owner s = refusedAt l tag .executing c s := by
  simp [takeCommand, h.hears, State.link, hp, Link.receivedWhole, Link.refusedWith, modifyLink_modifyLink]
  simp [modifyLink_eq_withLink, refusedAt, LineCounters.received, hp]

/-- R194: in RESULT a command is refused. -/
theorem takeCommand_result (h : TakesFrames s l) (hp : (s.links.get l).phase = .result) :
    takeCommand l tag c role form owner s = refusedAt l tag .resultWaiting c s := by
  simp [takeCommand, h.hears, State.link, hp, Link.receivedWhole, Link.refusedWith, modifyLink_modifyLink]
  simp [modifyLink_eq_withLink, refusedAt, LineCounters.received, hp]

/-- R192: a command not allowed to the link's role is refused. -/
theorem takeCommand_notForRole (h : ReadyLink s l) (hr : role = false) :
    takeCommand l tag c role form owner s = refusedAt l tag .notForRole c s := by
  subst hr
  simp [takeCommand, h.1.hears, State.link, h.2, Link.receivedWhole, Link.refusedWith, modifyLink_modifyLink]
  simp [modifyLink_eq_withLink, refusedAt, LineCounters.received, h.2]

/-- R192: a command whose body does not hold its fields is refused. -/
theorem takeCommand_malformed (h : ReadyLink s l) (hr : role = true) (hf : form = false) :
    takeCommand l tag c role form owner s = refusedAt l tag .malformed c s := by
  subst hr; subst hf
  simp [takeCommand, h.1.hears, State.link, h.2, Link.receivedWhole, Link.refusedWith, modifyLink_modifyLink]
  simp [modifyLink_eq_withLink, refusedAt, LineCounters.received, h.2]

/-- R192: an owner's completion: the DONE queued, the results held. -/
theorem takeCommand_done {code : CompletionCode} {results : List ResultRecord}
    (h : ReadyLink s l) (hr : role = true) (hf : form = true)
    (hl : c.isLong = true → (s.links.get l).long = none) (hc : c ≠ .setForcedError)
    (ho : owner (received l s) = .done code results (received l t)) :
    takeCommand l tag c role form owner s = doneAt l tag code results t := by
  subst hr; subst hf
  have hb : (c.isLong && (s.links.get l).long.isSome) = false := by
    cases e : c.isLong
    · rfl
    · simp [hl e]
  simp only [received] at ho
  simp [takeCommand, h.1.hears, State.link, h.2, Link.receivedWhole, hb]
  rw [ho]
  simp [Answer.applied, modifyLink_modifyLink, Link.completed]
  simp [modifyLink_eq_withLink, beq_eq_false_iff_ne.mpr hc, doneAt, LineCounters.received, Link.receivedWhole]

/-- R192: a long command accepted. -/
theorem takeCommand_started (h : ReadyLink s l) (hr : role = true) (hf : form = true)
    (hl : (s.links.get l).long = none) (ho : owner (received l s) = .started (received l t)) :
    takeCommand l tag c role form owner s = executingAt l tag c t := by
  subst hr; subst hf
  simp only [received] at ho
  simp [takeCommand, h.1.hears, State.link, h.2, Link.receivedWhole, hl]
  rw [ho]
  simp [Answer.applied, modifyLink_modifyLink]
  simp [modifyLink_eq_withLink, executingAt, LineCounters.received, Link.receivedWhole]

/-- R192, R193: a long command is refused BUSY while an earlier one of the link is still in flight. -/
theorem takeCommand_busy (h : ReadyLink s l) (hr : role = true) (hf : form = true) (hlong : c.isLong = true)
    (hl : (s.links.get l).long ≠ none) :
    takeCommand l tag c role form owner s = doneAt l tag .busy [] s := by
  subst hr; subst hf
  have hb : (s.links.get l).long.isSome = true := by
    cases e : (s.links.get l).long
    · exact absurd e hl
    · rfl
  have hc : c ≠ .setForcedError := by rintro rfl; simp [Command.isLong] at hlong
  simp [takeCommand, h.1.hears, State.link, h.2, Link.receivedWhole, hlong, hb]
  simp [Answer.applied, modifyLink_modifyLink, Link.completed]
  simp [modifyLink_eq_withLink, beq_eq_false_iff_ne.mpr hc, doneAt, LineCounters.received, Link.receivedWhole]

/-- R192: a command in Table 35's form completed by its owner. -/
theorem takePlain_done {code : CompletionCode} {results : List ResultRecord}
    (h : ReadyLink s l) (hr : c.allowed l = true)
    (hl : c.isLong = true → (s.links.get l).long = none) (hc : c ≠ .setForcedError)
    (ho : owner (received l s) = .done code results (received l t)) :
    takePlain l tag c owner s = doneAt l tag code results t :=
  takeCommand_done h hr rfl hl hc ho

/-- R192: a long command in Table 35's form accepted by its owner. -/
theorem takePlain_started (h : ReadyLink s l) (hr : c.allowed l = true) (hl : (s.links.get l).long = none)
    (ho : owner (received l s) = .started (received l t)) :
    takePlain l tag c owner s = executingAt l tag c t :=
  takeCommand_started h hr rfl hl ho

end Sys2Proof.Machine
end

