-- ==== Sys2Proof/Laws/Ops.lean ====
section
/-! SUPPORT. What each shared operation over the register, the chutes, the station, the cabinet, the doors, the claims
and the notices can do, said once: each lemma names the fields the operation writes and what it writes there. -/

namespace Sys2Proof.Machine

variable {s t : State}

/-! ## Records -/

/-- The record a number finds after the record of that number was changed. -/
theorem find_modifyIn_self {n : Nat} {f : Record → Record} (hf : ∀ r, (f r).number = r.number) (records : List Record) :
    (modifyIn n f records).find? (fun x => x.number == n) = (records.find? fun x => x.number == n).map f := by
  induction records with
  | nil => rfl
  | cons r rs ih =>
    simp only [modifyIn, List.map_cons, List.find?_cons] at ih ⊢
    by_cases h : r.number = n
    · simp [h, hf]
    · simp only [if_neg h, beq_eq_false_iff_ne.mpr h, ih]

/-- The record another number finds is as before. -/
theorem find_modifyIn_ne {n k : Nat} {f : Record → Record} (hf : ∀ r, (f r).number = r.number) (h : k ≠ n)
    (records : List Record) :
    (modifyIn n f records).find? (fun x => x.number == k) = records.find? fun x => x.number == k := by
  induction records with
  | nil => rfl
  | cons r rs ih =>
    simp only [modifyIn, List.map_cons, List.find?_cons] at ih ⊢
    by_cases hr : r.number = n
    · have hn : (n == k) = false := beq_eq_false_iff_ne.mpr fun e => h e.symm
      rw [if_pos hr, hf, hr, hn, ih]
    · rw [if_neg hr, ih]

/-- A change of records keeps their numbers. -/
theorem numbers_modifyIn {n : Nat} {f : Record → Record} (hf : ∀ r, (f r).number = r.number) (records : List Record) :
    (modifyIn n f records).map Record.number = records.map Record.number := by
  simp only [modifyIn, List.map_map]
  apply List.map_congr_left
  intro r _
  simp only [Function.comp]
  split
  · exact hf r
  · rfl

/-- A record under a number after the record of that number was changed. -/
theorem RecordAt.modify {n : Nat} {r : Record} {f : Record → Record} (hf : ∀ r, (f r).number = r.number)
    (h : RecordAt s n r) : RecordAt (modifyRecord n f s) n (f r) := by
  simp only [RecordAt, modifyRecord] at h ⊢
  rw [find_modifyIn_self hf, h]; rfl

/-- A record under another number is as before. -/
theorem RecordAt.modify_ne {n k : Nat} {r : Record} {f : Record → Record} (hf : ∀ r, (f r).number = r.number)
    (hk : k ≠ n) (h : RecordAt s k r) : RecordAt (modifyRecord n f s) k r := by
  simp only [RecordAt, modifyRecord] at h ⊢
  rw [find_modifyIn_ne hf hk, h]

/-- The record found under a number has that number. -/
theorem RecordAt.number {n : Nat} {r : Record} (h : RecordAt s n r) : r.number = n := by
  simpa using List.find?_some h

/-- The record found under a number is in the register. -/
theorem RecordAt.mem {n : Nat} {r : Record} (h : RecordAt s n r) : r ∈ s.register.records := List.mem_of_find?_eq_some h

/-- The same change made for every number of a list is one change, where making it twice is making it once. -/
theorem foldl_modifyRecord {f : Record → Record} (hf : ∀ r, (f r).number = r.number) (hff : ∀ r, f (f r) = f r)
    (ns : List Nat) (s : State) :
    ns.foldl (fun s n => modifyRecord n f s) s =
      { s with
        register :=
          { s.register with records := s.register.records.map fun r => if r.number ∈ ns then f r else r } } := by
  induction ns generalizing s with
  | nil => simp
  | cons n ns ih =>
    rw [List.foldl_cons, ih]
    simp only [modifyRecord, modifyIn, List.map_map, List.mem_cons]
    congr 2
    apply List.map_congr_left
    intro r _
    simp only [Function.comp]
    by_cases h1 : r.number = n
    · by_cases h2 : n ∈ ns <;> simp [h1, hf, h2, hff]
    · simp [h1]

/-- The records of a list that a record was inserted into. -/
theorem mem_insertRecord {r x : Record} {records : List Record} :
    x ∈ insertRecord r records ↔ x = r ∨ x ∈ records := by
  induction records with
  | nil => simp [insertRecord]
  | cons y ys ih =>
    unfold insertRecord
    split
    · simp
    · simp only [List.mem_cons, ih]; tauto

/-- R20: a record with a number no record of an ascending list has is inserted where the list stays ascending. -/
theorem insertRecord_ascending {r : Record} {records : List Record}
    (h : (records.map Record.number).Pairwise (· < ·)) (hr : ∀ x ∈ records, x.number ≠ r.number) :
    ((insertRecord r records).map Record.number).Pairwise (· < ·) := by
  rw [List.pairwise_map] at h ⊢
  induction records with
  | nil => simp [insertRecord]
  | cons y ys ih =>
    rw [List.pairwise_cons] at h
    unfold insertRecord
    split
    · rename_i hlt
      refine List.Pairwise.cons (fun x hx => ?_) (List.pairwise_cons.mpr h)
      rcases List.mem_cons.mp hx with rfl | hx
      · exact hlt
      · exact lt_trans hlt (h.1 x hx)
    · rename_i hge
      refine List.pairwise_cons.mpr ⟨fun x hx => ?_, ih h.2 fun x hx => hr x (List.mem_cons_of_mem _ hx)⟩
      rcases mem_insertRecord.mp hx with rfl | hx
      · have := hr y (List.mem_cons_self ..)
        omega
      · exact h.1 x hx

/-! ## Notices -/

/-- A raise writes the notices of the links and nothing else of the state. -/
theorem raiseTimes_eq {k : Notice} {m : Nat} : raiseTimes k m s = { s with links := (raiseTimes k m s).links } := by
  unfold raiseTimes; split <;> rfl

/-- A raise writes the notices of a link and nothing else of it. -/
theorem raiseTimes_get {k : Notice} {m : Nat} {l : LinkId} :
    (raiseTimes k m s).links.get l =
      { s.links.get l with notices := ((raiseTimes k m s).links.get l).notices } := by
  unfold raiseTimes; split
  · rfl
  · simp [Link.raised]

/-- A raise on one link. -/
theorem raise_get {k : Notice} {l : LinkId} : (raise k s).links.get l = (s.links.get l).raised k 1 := by
  simp [raise, raiseTimes]

/-! ## The cabinet -/

/-- The last `r` members of an ascending list: those with fewer than `r` members above them. -/
theorem drop_eq_filter_of_ascending {n : Nat} (r : Nat) {l : List (Fin n)} (h : l.Pairwise (· < ·)) :
    l.drop (l.length - r) = l.filter fun c => decide (l.countP (fun d => decide (c < d)) < r) := by
  induction l with
  | nil => simp
  | cons x xs ih =>
    rw [List.pairwise_cons] at h
    have hx : (x :: xs).countP (fun d => decide (x < d)) = xs.length := by
      rw [List.countP_cons_of_neg (by simp), List.countP_eq_length]
      intro y hy; simpa using h.1 y hy
    have hrest : xs.filter (fun c => decide ((x :: xs).countP (fun d => decide (c < d)) < r)) =
        xs.filter fun c => decide (xs.countP (fun d => decide (c < d)) < r) := by
      apply List.filter_congr
      intro c hc
      rw [List.countP_cons_of_neg (by simpa using le_of_lt (h.1 c hc))]
    rw [List.filter_cons, hx, hrest, ← ih h.2]
    by_cases hr : xs.length < r
    · rw [if_pos (by simpa using hr), List.length_cons,
        show xs.length + 1 - r = 0 by omega, show xs.length - r = 0 by omega]; rfl
    · rw [if_neg (by simpa using hr), List.length_cons,
        show xs.length + 1 - r = (xs.length - r) + 1 by omega]; rfl

/-- R98: a compartment of a class is reserved when fewer compartments of its class than the reserve count stand above
it. -/
theorem reservedBoxes_eq {k : BoxClass} :
    reservedBoxes s k =
      (boxesOf s k).filter fun c =>
        decide ((List.finRange 48).countP (fun d => decide (c < d ∧ (s.box d).cls = k)) < reserveOf s k) := by
  have ho : (boxesOf s k).Pairwise (· < ·) := (List.pairwise_lt_finRange 48).filter _
  rw [reservedBoxes, drop_eq_filter_of_ascending _ ho]
  apply List.filter_congr
  intro c _
  rw [boxesOf, List.countP_filter]
  congr 3
  funext d
  rw [Bool.decide_and]; rfl

/-- R98: the reserved mark of a compartment. -/
theorem isReserved_eq {c : CompartmentId} :
    isReserved s c =
      decide ((List.finRange 48).countP (fun d => decide (c < d ∧ (s.box d).cls = (s.box c).cls)) <
        reserveOf s (s.box c).cls) := by
  unfold isReserved
  rw [reservedBoxes_eq, Bool.eq_iff_iff]
  simp [boxesOf]

/-- R98: the reserved compartments of a class are its compartments with the reserved mark. -/
theorem reservedBoxes_eq_filter {k : BoxClass} : reservedBoxes s k = (boxesOf s k).filter (isReserved s) := by
  rw [reservedBoxes_eq]
  apply List.filter_congr
  intro c hc
  have : (s.box c).cls = k := by simpa [boxesOf] using hc
  rw [isReserved_eq, this]

/-- R99: the free places of a class, reserved or not. -/
theorem freePlaces_eq {k : BoxClass} {r : Bool} :
    freePlaces s k r = (((boxesOf s k).filter fun c => isReserved s c == r).map (freePlacesAt s)).sum := by
  dsimp only [freePlaces]
  congr 2
  apply List.filter_congr
  intro c hc
  have : (reservedBoxes s k).contains c = isReserved s c := by
    rw [reservedBoxes_eq_filter, Bool.eq_iff_iff]; simp [hc]
  rw [this]

/-- R99: the free places depend on the compartment map, the reserve counts and the station's state alone. -/
theorem freePlaces_congr {k : BoxClass} {r : Bool} (h : t.cabinet.compartments = s.cabinet.compartments)
    (h1 : t.cabinet.reserveStandard = s.cabinet.reserveStandard) (h2 : t.cabinet.reserveCoin = s.cabinet.reserveCoin)
    (h3 : t.station.state = s.station.state) : freePlaces t k r = freePlaces s k r := by
  have hb : t.box = s.box := by funext c; simp [State.box, h]
  have hp : freePlacesAt t = freePlacesAt s := by
    funext c; simp only [freePlacesAt, hb, pendingAt, h3]
  have hr : reserveOf t k = reserveOf s k := by cases k <;> simp [reserveOf, h1, h2]
  have hbo : boxesOf t k = boxesOf s k := by simp only [boxesOf, hb]
  simp only [freePlaces, reservedBoxes, hbo, hr, hp]

set_option maxRecDepth 10000 in
/-- R99, R207: a cleared store has more free places of each class than its low-mark threshold, so its low marks are
clear. -/
theorem withLowMarks_cleared : withLowMarks (cleared s) = cleared s := by
  have sum_ge : ∀ {l : List Nat}, (∀ x ∈ l, 1 ≤ x) → l.length ≤ l.sum := by
    intro l hl
    induction l with
    | nil => simp
    | cons x xs ih =>
      have := hl x (by simp)
      have := ih fun y hy => hl y (by simp [hy])
      simp; omega
  have hc : ∀ k, (cleared s).store.params.spaceLow < freePlaces (cleared s) k false := by
    intro k
    have hbox : boxesOf (cleared s) k = boxesOf State.reset k := by
      unfold boxesOf; congr 1; funext c
      simp [State.box, cleared, State.reset, Compartment.initial, Cabinet.initial]
    have hres : reservedBoxes (cleared s) k = reservedBoxes State.reset k := by
      unfold reservedBoxes; rw [hbox]; rfl
    have hp : ∀ c, 1 ≤ freePlacesAt (cleared s) c := by
      intro c
      have hb : (cleared s).box c = { Compartment.initial c with door := (s.box c).door } := by
        simp [State.box, cleared]
      have : pendingAt (cleared s) c ≤ 1 := by unfold pendingAt; split; split <;> simp; simp
      have hcap : 2 ≤ capacity (if c.val < 40 then .standard else .coin) := by split <;> simp [capacity]
      simp only [freePlacesAt, hb, Compartment.initial, if_true, List.length_nil]
      omega
    have hl : 4 < ((boxesOf State.reset k).filter fun c =>
        (reservedBoxes State.reset k).contains c == false).length := by
      cases k <;> decide
    simp only [freePlaces, hbox, hres]
    refine lt_of_lt_of_le hl (le_trans (le_of_eq (by rw [List.length_map])) (sum_ge ?_))
    intro x hx
    obtain ⟨c, _, rfl⟩ := List.mem_map.mp hx
    exact hp c
  unfold withLowMarks
  rw [decide_eq_false (by have := hc .standard; omega), decide_eq_false (by have := hc .coin; omega)]
  rfl

/-- The low marks' test writes the low marks and, where one is set anew, the notices. -/
theorem testLowMarks_eq :
    testLowMarks s =
      { s with
        cabinet :=
          { s.cabinet with
            lowStandard := (testLowMarks s).cabinet.lowStandard
            lowCoin := (testLowMarks s).cabinet.lowCoin }
        links := (testLowMarks s).links } := by
  unfold testLowMarks
  dsimp only
  rw [raiseTimes_eq]
  rfl

/-- The low marks' test keeps the compartment map. -/
@[simp] theorem testLowMarks_compartments :
    (testLowMarks s).cabinet.compartments = s.cabinet.compartments := by
  rw [testLowMarks_eq]

/-- The low marks' test keeps the reserve counts. -/
@[simp] theorem testLowMarks_reserves :
    (testLowMarks s).cabinet.reserveStandard = s.cabinet.reserveStandard ∧
      (testLowMarks s).cabinet.reserveCoin = s.cabinet.reserveCoin := by
  rw [testLowMarks_eq]; exact ⟨rfl, rfl⟩

/-- The low marks' test writes the notices of a link and nothing else of it. -/
theorem testLowMarks_get {l : LinkId} :
    (testLowMarks s).links.get l = { s.links.get l with notices := ((testLowMarks s).links.get l).notices } := by
  unfold testLowMarks; dsimp only; rw [raiseTimes_get]; rfl

/-- The low marks' test comes before or after the receipt of a frame. -/
theorem testLowMarks_received {l : LinkId} : testLowMarks (received l s) = received l (testLowMarks s) := by
  unfold testLowMarks; dsimp only; rw [← raiseTimes_received]; rfl

/-- A granted place: the record ROUTING to the compartment found, the station PLACING, and nothing else. -/
theorem placeGranted_eq {n : Nat} {src : Source} {u : State} (h : placeGranted n src s = some u) :
    ∃ r c noSpace, s.find n = some r ∧ allocate s r.accepted (r.kind.getD .note) r.handling = some (c, noSpace) ∧
      u = setStation (.placing n src c (s.store.params.transitTimeout * 1000))
        (modifyRecord n
          (fun r => { r with state := .routing, compartment := some c,
                             reasons := addReasonIf noSpace .noSpace r.reasons }) s) := by
  unfold placeGranted at h
  split at h
  · cases h
  · rename_i r hr
    split at h
    · cases h
    · rename_i c b ha
      exact ⟨r, c, b, hr, ha, (Option.some.inj h).symm⟩

/-- A retry writes the records and the station's state, and nothing else. -/
theorem retry_eq :
    retry s =
      { s with
        register := { s.register with records := (retry s).register.records }
        station := { s.station with state := (retry s).station.state } } := by
  unfold retry
  split
  · rename_i n src _
    cases hp : placeGranted n src s with
    | none => rfl
    | some u =>
      obtain ⟨r, c, b, _, _, rfl⟩ := placeGranted_eq hp
      rfl
  · rfl

/-- A retry does nothing while no bag is BLOCKED. -/
theorem retry_of_not_blocked (h : ∀ n src, s.station.state ≠ .blocked n src) : retry s = s := by
  unfold retry
  split
  · exact absurd ‹_› (h _ _)
  · rfl

/-- A retry changes at most the record that is BLOCKED. -/
theorem retry_mem {x : Record} (hx : x ∈ s.register.records) (h : ∀ src, s.station.state ≠ .blocked x.number src) :
    x ∈ (retry s).register.records := by
  unfold retry
  split
  · rename_i n src hb
    have hn : x.number ≠ n := by rintro rfl; exact h src hb
    cases hp : placeGranted n src s with
    | none => exact hx
    | some u =>
      obtain ⟨r, c, b, _, _, rfl⟩ := placeGranted_eq hp
      exact List.mem_map.mpr ⟨x, hx, by simp [hn]⟩
  · exact hx

/-- A retry keeps the record found under a number that is not BLOCKED. -/
theorem RecordAt.retry {n : Nat} {r : Record} (hr : RecordAt s n r) (h : ∀ src, s.station.state ≠ .blocked n src) :
    RecordAt (Machine.retry s) n r := by
  unfold Machine.retry
  split
  · rename_i k src hb
    have hn : n ≠ k := by rintro rfl; exact h src hb
    cases hp : placeGranted k src s with
    | none => exact hr
    | some u =>
      obtain ⟨r', c, b, _, _, rfl⟩ := placeGranted_eq hp
      exact hr.modify_ne (fun _ => rfl) hn
  · exact hr

/-- A retry leaves the cabinet alone. -/
@[simp] theorem retry_cabinet : (retry s).cabinet = s.cabinet := by rw [retry_eq]

/-- A retry leaves the claims alone. -/
@[simp] theorem retry_claims : (retry s).claims = s.claims := by rw [retry_eq]

/-- A retry leaves the links alone. -/
@[simp] theorem retry_links : (retry s).links = s.links := by rw [retry_eq]

/-- A retry leaves the chutes alone. -/
@[simp] theorem retry_chutes : (retry s).chutes = s.chutes := by rw [retry_eq]

/-- A retry comes before or after the receipt of a frame. -/
theorem retry_received {l : LinkId} : retry (received l s) = received l (retry s) := by
  unfold retry
  have : (received l s).station = s.station := rfl
  rw [this]
  split
  · rename_i n src _
    have hp : placeGranted n src (received l s) = (placeGranted n src s).map (received l) := by
      unfold placeGranted
      have hf : (received l s).find n = s.find n := rfl
      rw [hf]
      cases s.find n with
      | none => rfl
      | some r =>
        have ha : ∀ a k h, allocate (received l s) a k h = allocate s a k h := fun _ _ _ => rfl
        simp only [ha]
        cases allocate s r.accepted (r.kind.getD .note) r.handling with
        | none => rfl
        | some p => rfl
    rw [hp]
    cases placeGranted n src s <;> rfl
  · rfl

/-! ## The arbiter -/

/-- A grant to a requester whose queue has a head: the head leaves the queue, its record is CHECKING, the station loads
it. -/
theorem grant_of_queue {src : Source} {n : Nat} {rest : List Nat} (h : queueOf s src = n :: rest) :
    grant src s =
      setStation (.loading n src (s.store.params.loadTimeout * 1000))
        (modifyRecord n (fun r => { r with state := .checking }) (popQueue src s)) := by
  unfold grant; rw [h]

/-- The arbiter does nothing while the station is not IDLE. -/
theorem arbitrate_of_busy (h : s.station.state ≠ .idle) : arbitrate s = s := by
  unfold arbitrate; rw [if_neg h]

/-- The arbiter does nothing while no requester has a bag. -/
theorem arbitrate_of_none (h : chosenRequester s = none) : arbitrate s = s := by
  unfold arbitrate; rw [h]; split <;> rfl

/-- The arbiter writes records, throat queues and the station, and nothing else. -/
theorem arbitrate_eq :
    arbitrate s =
      { s with
        register := { s.register with records := (arbitrate s).register.records }
        chutes := (arbitrate s).chutes
        station := (arbitrate s).station } := by
  unfold arbitrate grant
  split
  · split
    · split
      · rfl
      · rename_i src _ _ _ _ _; cases src <;> rfl
    · rfl
  · rfl

/-- The arbiter takes bags from the throat queues and changes nothing else of a chute. -/
theorem arbitrate_chute {c : ChuteId} :
    (arbitrate s).chutes.get c = { s.chutes.get c with queue := ((arbitrate s).chutes.get c).queue } := by
  unfold arbitrate grant
  split
  · split
    · split
      · rfl
      · rename_i src _ _ _ _ _
        cases src with
        | service => rfl
        | throat d =>
          by_cases h : c = d
          · subst h; simp [popQueue, modifyChute, setStation, modifyRecord]
          · simp [popQueue, modifyChute, setStation, modifyRecord, Table.get_set_ne _ _ h]
    · rfl
  · rfl

/-! ## Entry reports -/

/-- R150: an entry report restarts a scan that runs at its compartment and changes no other door. -/
theorem restartScan_eq {c : CompartmentId} : restartScan c s = entryBase c s := by
  have keep : ∀ b, s.cabinet.compartments.get c = b →
      s = { s with cabinet := { s.cabinet with compartments := s.cabinet.compartments.set c b } } := by
    rintro b rfl; rw [Table.set_get_self]
  have same : ∀ b : Compartment, b.door.rescanned = b.door → b = { b with door := b.door.rescanned } := by
    intro b h; rw [h]
  unfold restartScan entryBase modifyBox State.box
  cases h : (s.cabinet.compartments.get c).door with
  | scanning op ms => simp [setDoor, modifyBox, Door.rescanned, Config.scanMs, h]
  | _ => exact keep _ (same _ (by rw [h]; rfl))

/-! ## Reports -/

/-- R205: the contents of a report source depend on no link. -/
theorem sourceBytes_links {links : Table Link 4} : sourceBytes { s with links := links } = sourceBytes s := rfl

/-- R205: a stored bag on one link. -/
theorem countBag_eq {l : LinkId} : countBag s l = modifyLink l (Link.bagCounted (sourceBytes s)) s := by
  unfold countBag Link.bagCounted State.link
  cases hp : (s.links.get l).program with
  | none => simp [modifyLink, hp]
  | some p =>
    obtain ⟨cadence, sources, produced⟩ := p
    cases cadence with
    | seconds n ms => simp [modifyLink, hp]
    | bags n count =>
      by_cases hc : count + 1 < n
      · simp [setCadence, modifyLink, hp, hc]
      · by_cases hq : (s.links.get l).present = true
        · simp [setCadence, reportDue, State.link, modifyLink, hp, hc, hq, nextReport, sourceBytes_links]
        · simp [setCadence, reportDue, State.link, modifyLink, hp, hc, hq]

/-- R205: a stored bag counts on every link, and nothing but the links changes. -/
theorem bagStored_eq : bagStored s = { s with links := s.links.map (Link.bagCounted (sourceBytes s)) } := by
  have key : ∀ (ls : List LinkId) (u : State), ls.Nodup →
      ls.foldl countBag u =
        { u with
          links := .tabulate fun l =>
            if l ∈ ls then Link.bagCounted (sourceBytes u) (u.links.get l) else u.links.get l } := by
    intro ls
    induction ls with
    | nil =>
      intro u _
      have : (Table.tabulate fun l => u.links.get l) = u.links := Table.ext_get fun _ => by simp
      simp [this]
    | cons a ls ih =>
      intro u hn
      rw [List.nodup_cons] at hn
      rw [List.foldl_cons, countBag_eq, ih _ hn.2]
      simp only [modifyLink, sourceBytes_links]
      congr 1
      apply Table.ext_get
      intro l
      by_cases h : l = a
      · subst h; simp [hn.1]
      · simp [h, Table.get_set_ne _ _ h]
  rw [bagStored, key _ _ (List.nodup_finRange 4)]
  congr 1
  apply Table.ext_get
  simp

/-! ## Long commands and doors -/

/-- The end of a long command with delivery DELIVER. -/
theorem Link.longEnded_deliver {k : Link} {code : CompletionCode} {results : List ResultRecord} {cmd : Command}
    {tag : Nat} (h : k.long = some ⟨cmd, tag, .deliver⟩) :
    k.longEnded code results =
      { k with
        long := none
        held := results
        phase := if results.isEmpty then .ready else .result
        queue := k.queue ++ [.done tag code results.length false] } := by
  simp [Link.longEnded, h, Link.completed]

/-- The end of a long command with delivery DISCARD. -/
theorem Link.longEnded_discard {k : Link} {code : CompletionCode} {results : List ResultRecord} {cmd : Command}
    {tag : Nat} (h : k.long = some ⟨cmd, tag, .discard⟩) : k.longEnded code results = { k with long := none } := by
  simp [Link.longEnded, h]

/-- The end of a long command keeps what R185 says of the phases. -/
theorem Link.PhaseHolds.longEnded {k : Link} {code : CompletionCode} {results : List ResultRecord}
    (h : k.PhaseHolds) : (k.longEnded code results).PhaseHolds := by
  unfold Link.longEnded
  split
  · exact h
  · rename_i c hc
    cases hd : c.delivery with
    | deliver =>
      simp only [Link.completed, Link.PhaseHolds]
      by_cases hr : results = []
      · simp [hr]
      · simp [hr]
    | discard =>
      unfold Link.PhaseHolds at h ⊢
      cases hp : k.phase with
      | ready => simp only [hp] at h ⊢; exact ⟨h.1, by simp⟩
      | executing =>
        simp only [hp] at h
        obtain ⟨_, c', hc', hd'⟩ := h
        rw [hc] at hc'; cases hc'; rw [hd] at hd'; cases hd'
      | result => simp only [hp] at h ⊢; exact ⟨h.1, by simp⟩

/-- A relocked bank: the UNLOCKED doors of the link in the listed compartments are LOCKED, each with the end of its
operation; claims, occupants and every other door are kept. -/
theorem foldl_relockDoor_box {l : LinkId} (cs : List CompartmentId) (s : State) (c : CompartmentId) :
    (cs.foldl (relockDoor l) s).cabinet.compartments.get c =
      { s.cabinet.compartments.get c with
        door :=
          match (s.cabinet.compartments.get c).door with
          | .unlocked (.command k w d) ms => if c ∈ cs ∧ k = l then .locked else .unlocked (.command k w d) ms
          | x => x } := by
  induction cs generalizing s with
  | nil =>
    simp only [List.foldl_nil, List.not_mem_nil, false_and, if_false]
    cases hd : (s.cabinet.compartments.get c).door with
    | unlocked op ms => cases op <;> simp [← hd]
    | _ => simp [← hd]
  | cons a cs ih =>
    rw [List.foldl_cons, ih]
    have key : (relockDoor l s a).cabinet.compartments.get c =
        { s.cabinet.compartments.get c with
          door :=
            match (s.cabinet.compartments.get c).door with
            | .unlocked (.command k w d) ms => if c = a ∧ k = l then .locked else .unlocked (.command k w d) ms
            | x => x } := by
      unfold relockDoor State.box
      by_cases hc : c = a
      · subst hc
        cases hd : (s.cabinet.compartments.get c).door with
        | unlocked op ms =>
          cases op with
          | unattended => simp [← hd]
          | command k w d =>
            by_cases hk : k = l
            · simp [hk, endDoorOp, endLong, modifyLink, setDoor, modifyBox]
            · simp [hk, ← hd]
        | _ => simp [← hd]
      · have same : (match (s.cabinet.compartments.get c).door with
            | .unlocked (.command k w d) ms =>
              if c = a ∧ k = l then Door.locked else .unlocked (.command k w d) ms
            | x => x) = (s.cabinet.compartments.get c).door := by
          cases hd : (s.cabinet.compartments.get c).door with
          | unlocked op ms =>
            cases op
            · rfl
            · simp [hc]
          | _ => rfl
        rw [same]
        split
        · split
          · simp [endDoorOp, endLong, modifyLink, setDoor, modifyBox, Table.get_set_ne _ _ hc]
          · rfl
        · rfl
    rw [key]
    cases hd : (s.cabinet.compartments.get c).door with
    | unlocked op ms =>
      cases op with
      | unattended => simp
      | command k w d =>
        by_cases hk : k = l
        · by_cases hca : c = a
          · simp [hk, hca]
          · simp [hk, hca]
        · simp [hk]
    | _ => simp

/-- Relocked doors leave everything but the cabinet and the links as it was. -/
theorem foldl_relockDoor_eq {l : LinkId} (cs : List CompartmentId) (s : State) :
    cs.foldl (relockDoor l) s =
      { s with cabinet := (cs.foldl (relockDoor l) s).cabinet, links := (cs.foldl (relockDoor l) s).links } := by
  induction cs generalizing s with
  | nil => rfl
  | cons a cs ih =>
    rw [List.foldl_cons, ih]
    have : relockDoor l s a =
        { s with cabinet := (relockDoor l s a).cabinet, links := (relockDoor l s a).links } := by
      unfold relockDoor
      split
      · split <;> rfl
      · rfl
    rw [this]

/-- Relocked doors end a long command of the link at most and leave every other link as it was. -/
theorem foldl_relockDoor_link {l i : LinkId} (h : i ≠ l) (cs : List CompartmentId) (s : State) :
    (cs.foldl (relockDoor l) s).links.get i = s.links.get i := by
  induction cs generalizing s with
  | nil => rfl
  | cons a cs ih =>
    rw [List.foldl_cons, ih]
    unfold relockDoor
    split
    · split
      · rename_i k _ _ _ _ hk
        subst hk
        simp [endDoorOp, endLong, modifyLink, setDoor, modifyBox, Table.get_set_ne _ _ h]
      · rfl
    · rfl

/-- A compartment is among a bank's compartments exactly when the bank is its bank. -/
@[simp] theorem mem_bankBoxes {c : CompartmentId} {b : Fin 4} : c ∈ bankBoxes b ↔ bankOf c = b := by
  simp [bankBoxes]

/-- What follows relocked doors: at most a retry and the low marks' test. -/
theorem afterRelock_eq {before : State} :
    afterRelock before s =
      { s with
        register := { s.register with records := (afterRelock before s).register.records }
        station := { s.station with state := (afterRelock before s).station.state }
        cabinet :=
          { s.cabinet with
            lowStandard := (afterRelock before s).cabinet.lowStandard
            lowCoin := (afterRelock before s).cabinet.lowCoin }
        links := (afterRelock before s).links } := by
  unfold afterRelock
  split
  · rw [testLowMarks_eq, retry_eq]
  · rfl

/-- What follows relocked doors writes the notices of a link and nothing else of it. -/
theorem afterRelock_get {before : State} {l : LinkId} :
    (afterRelock before s).links.get l =
      { s.links.get l with notices := ((afterRelock before s).links.get l).notices } := by
  unfold afterRelock
  split
  · rw [testLowMarks_get, retry_links]
  · rfl

/-- What follows relocked doors moves no record while no bag is BLOCKED. -/
theorem afterRelock_of_not_blocked {before : State} (h : ∀ n src, s.station.state ≠ .blocked n src) :
    (afterRelock before s).register = s.register ∧ (afterRelock before s).station = s.station := by
  unfold afterRelock
  split
  · rw [retry_of_not_blocked h, testLowMarks_eq]; exact ⟨rfl, rfl⟩
  · exact ⟨rfl, rfl⟩

/-! ## Scans -/

/-- R153, R154: where no tag recovers a record, every tag is foreign and nothing changes. -/
theorem recoverTags_of_none {c : CompartmentId} {tags : List Nat} (h : ∀ g ∈ tags, recoverable s c g = none) :
    recoverTags c tags s = (s, [], tags) := by
  induction tags with
  | nil => rfl
  | cons g gs ih =>
    simp only [recoverTags, h g (List.mem_cons_self ..), ih fun x hx => h x (List.mem_cons_of_mem _ hx)]

/-- R150: tags in range and without repeats are the tags of the scan. -/
theorem scannedTags_eq {tags : List Nat} (h : ∀ g ∈ tags, isTag g = true) (hn : tags.Nodup) :
    scannedTags tags = tags := by
  rw [scannedTags, List.filter_eq_self.mpr h, List.Nodup.dedup hn]

/-! ## Chutes -/

/-- A chute's fault: the chute in FAULT with no hold, a reservation it held returned, CHUTE_FAULT raised; a chute in
FAULT is left alone. -/
theorem faultChute_of_not_fault {c : ChuteId} {b : Bool} (h : (s.chutes.get c).state ≠ .fault) :
    faultChute c b s =
      raise .chuteFault
        (modifyChute c (fun k => { k with state := .fault, hold := none })
          (if b then returnReservation s else s)) := by
  unfold faultChute
  rw [if_neg (by exact h)]
  cases b <;> rfl

/-- A chute in FAULT is left alone. -/
theorem faultChute_of_fault {c : ChuteId} {b : Bool} (h : (s.chutes.get c).state = .fault) :
    faultChute c b s = s := by
  unfold faultChute
  rw [if_pos (by exact h)]

end Sys2Proof.Machine
end

