-- ==== Sys2Proof/Laws/Evaluate.lean ====
section
/-! SUPPORT. What an evaluation and the allocation after it do, said once in the words of Safety.lean: the reasons a
set holds, the tag and advice tests, the check rules, and the compartment that the passes of R104 and R105 choose. -/

namespace Sys2Proof.Machine

variable {s : State}

/-! ## Sets of reasons -/

/-- The empty set holds no reason. -/
@[simp] theorem hasReason_zero {x : Reason} : hasReason 0 x = false := by cases x <;> rfl

/-- The empty set, as a word of twelve bits, holds no reason. -/
@[simp] theorem hasReason_word_zero {x : Reason} : hasReason 0#12 x = false := hasReason_zero

/-- The set of one reason holds it alone. -/
@[simp] theorem hasReason_only {x y : Reason} : hasReason x.only y = decide (x = y) := by
  cases x <;> cases y <;> rfl

/-- A reason added, when the test holds. -/
@[simp] theorem hasReason_addReasonIf {test : Bool} {x y : Reason} {set : ReasonSet} :
    hasReason (addReasonIf test x set) y = (hasReason set y || test && decide (x = y)) := by
  unfold addReasonIf
  cases test
  · simp
  · have : hasReason (addReason set x) y = (hasReason set y || hasReason x.only y) := by
      simp [hasReason, addReason]
    simp [this]

/-- A set is empty when it holds none of the twelve reasons. -/
theorem eq_zero_iff_hasReason {set : ReasonSet} : set = 0 ↔ ∀ x : Reason, hasReason set x = false := by
  constructor
  · rintro rfl x; exact hasReason_zero
  · intro h
    apply BitVec.eq_of_getLsbD_eq
    intro i hi
    have hb : ∀ i < 12, ∃ x : Reason, x.bit = i := by
      intro i hi
      interval_cases i
      · exact ⟨.unreadable, rfl⟩
      · exact ⟨.unadvised, rfl⟩
      · exact ⟨.wrongDepositor, rfl⟩
      · exact ⟨.duplicate, rfl⟩
      · exact ⟨.weight, rfl⟩
      · exact ⟨.tamper, rfl⟩
      · exact ⟨.stale, rfl⟩
      · exact ⟨.rule, rfl⟩
      · exact ⟨.noSpace, rfl⟩
      · exact ⟨.misrouted, rfl⟩
      · exact ⟨.recovered, rfl⟩
      · exact ⟨.tagChanged, rfl⟩
    obtain ⟨x, rfl⟩ := hb i hi
    have := h x
    unfold hasReason at this
    rw [this]; simp

/-! ## The tag tests -/

/-- R80: the duplicate test. -/
theorem tagCarriedElsewhere_iff {n g : Nat} : tagCarriedElsewhere s n g = true ↔ CarriedElsewhere s n g := by
  unfold tagCarriedElsewhere CarriedElsewhere
  rw [List.any_eq_true]
  have : ∀ x : Record, x.state.isTerminal = false ↔
      x.state ≠ .counted ∧ x.state ≠ .dispatched ∧ x.state ≠ .void := by
    intro x; cases x.state <;> simp [RecordState.isTerminal]
  simp [this, and_assoc]

/-- R80: the duplicate test fails. -/
theorem tagCarriedElsewhere_eq_false {n g : Nat} : tagCarriedElsewhere s n g = false ↔ ¬ CarriedElsewhere s n g := by
  rw [← tagCarriedElsewhere_iff, Bool.not_eq_true]

/-- R80, R83: where the tag read is looked up, the finding is that of the lookup. -/
theorem tagTests_of_looksUp {r : Record} {res : ReadResult} (h : LooksUp s r res) :
    ∃ g broken, res = .tag g broken ∧ ¬ CarriedElsewhere s r.number g ∧
      tagTests s r res =
        { tag := some g, tamper := tamperOf broken, advice := (lookup s g).1, matchedNow := (lookup s g).1.isSome,
          reasons := (lookup s g).2 } := by
  obtain ⟨g, broken, rfl, hc, ht⟩ := h
  refine ⟨g, broken, rfl, hc, ?_⟩
  have hd := tagCarriedElsewhere_eq_false.mpr hc
  rcases ht with ht | ⟨ht, ha⟩
  · simp [tagTests, ht, afterDuplicateTest, hd]
  · simp [tagTests, ht, ha, afterDuplicateTest, hd]

/-- R80: the lookup of a tag. -/
theorem lookup_eq {g : Nat} :
    lookup s g =
      match s.advices.entries.find? fun a => a.tag == g with
      | none => (none, Reason.unadvised.only)
      | some a => if a.matched = none then (some a.index, 0) else (none, Reason.duplicate.only) := by
  unfold lookup adviceByTag
  cases h : s.advices.entries.find? fun a => a.tag == g with
  | none => rfl
  | some a => cases hm : a.matched <;> simp [hm]

/-- R80, R83: where the tag is not looked up, nothing is matched, the advice is kept or left absent, and the reasons are
those of the read and of the duplicate test. -/
theorem tagTests_of_not_looksUp {r : Record} {res : ReadResult} (h : ¬ LooksUp s r res) :
    (tagTests s r res).matchedNow = false ∧
      (r.tag = none ∧ res ≠ .failed → (tagTests s r res).advice = none) ∧
      (r.tag ≠ none ∨ res = .failed → (tagTests s r res).advice = r.advice) ∧
      ∀ x, hasReason (tagTests s r res).reasons x = true ↔
        (x = .unreadable ∧ res = .failed ∨
          x = .duplicate ∧ (∃ g, (tagTests s r res).tag = some g ∧ CarriedElsewhere s r.number g) ∨
          x = .tagChanged ∧ ∃ old g broken, r.tag = some old ∧ res = .tag g broken ∧ g ≠ old) := by
  cases ht : r.tag with
  | none =>
    cases res with
    | failed => simp [tagTests, ht, eq_comm]
    | tag g broken =>
      have hc : CarriedElsewhere s r.number g := by
        by_contra hc; exact h ⟨g, broken, rfl, hc, .inl ht⟩
      have hd := tagCarriedElsewhere_iff.mpr hc
      simp [tagTests, ht, afterDuplicateTest, hd, hc, eq_comm]
  | some old =>
    cases res with
    | failed =>
      simp only [tagTests, ht, hasReason_addReasonIf, hasReason_only, Bool.or_eq_true, Bool.and_eq_true,
        decide_eq_true_eq, tagCarriedElsewhere_iff]
      simp [eq_comm, and_comm]
    | tag g broken =>
      by_cases hg : g = old
      · subst hg
        by_cases ha : r.advice = none
        · have hc : CarriedElsewhere s r.number g := by
            by_contra hc; exact h ⟨g, broken, rfl, hc, .inr ⟨ht, ha⟩⟩
          have hd := tagCarriedElsewhere_iff.mpr hc
          simp [tagTests, ht, ha, afterDuplicateTest, hd, hc, eq_comm]
        · have hs : r.advice.isSome = true := Option.isSome_iff_ne_none.mpr ha
          simp only [tagTests, ht, hs, if_true, hasReason_addReasonIf, hasReason_zero, Bool.or_eq_true,
            Bool.and_eq_true, decide_eq_true_eq, tagCarriedElsewhere_iff]
          simp [eq_comm, and_comm]
      · simp only [tagTests, ht, if_neg hg, hasReason_addReasonIf, hasReason_only, Bool.or_eq_true, Bool.and_eq_true,
          decide_eq_true_eq, tagCarriedElsewhere_iff]
        simp [eq_comm, and_comm, or_comm, show ¬ old = g from fun e => hg e.symm]

/-- R80, R83: the tag tests give four reasons and no other. -/
theorem hasReason_tagTests {r : Record} {res : ReadResult} {x : Reason}
    (hx : hasReason (tagTests s r res).reasons x = true) :
    x = .unreadable ∨ x = .duplicate ∨ x = .unadvised ∨ x = .tagChanged := by
  by_cases hl : LooksUp s r res
  · obtain ⟨g, broken, _, _, hf⟩ := tagTests_of_looksUp hl
    rw [hf, lookup_eq] at hx
    dsimp only at hx
    split at hx
    · rw [hasReason_only, decide_eq_true_eq] at hx; exact .inr (.inr (.inl hx.symm))
    · split at hx
      · rw [hasReason_zero] at hx; cases hx
      · rw [hasReason_only, decide_eq_true_eq] at hx; exact .inr (.inl hx.symm)
  · rcases ((tagTests_of_not_looksUp hl).2.2.2 x).mp hx with ⟨h, _⟩ | ⟨h, _⟩ | ⟨h, _⟩
    · exact .inl h
    · exact .inr (.inl h)
    · exact .inr (.inr (.inr h))

/-- R80, R83: what the tag tests write: the tag and the tamper. -/
theorem tagTests_tag {r : Record} {res : ReadResult} :
    (tagTests s r res).tag = (match res with | .tag g _ => some g | .failed => r.tag) ∧
      (tagTests s r res).tamper =
        (match res with | .tag _ broken => if broken then .broken else .intact | .failed => .unread) := by
  have hd : ∀ n g x, (afterDuplicateTest s n g x).tag = some g ∧ (afterDuplicateTest s n g x).tamper = x := by
    intro n g x; unfold afterDuplicateTest; split <;> exact ⟨rfl, rfl⟩
  cases res with
  | failed => cases ht : r.tag <;> simp [tagTests, ht]
  | tag g broken =>
    cases ht : r.tag with
    | none => simp only [tagTests, ht, hd]; exact ⟨trivial, rfl⟩
    | some old =>
      simp only [tagTests, ht]
      split
      · split
        · exact ⟨rfl, rfl⟩
        · simp only [hd]; exact ⟨trivial, rfl⟩
      · exact ⟨rfl, rfl⟩

/-! ## The evaluated record -/

/-- R27, R80: the advice table after the tag tests. -/
def tableAfter (s : State) (n : Nat) (f : TagFinding) : AdviceTable :=
  if f.matchedNow then (match f.advice with | some i => (matchEntry i n s).advices | none => s.advices) else s.advices

/-- R80 to R84: an evaluated record takes the place of the record checked, and the advice table is that of the tag
tests; nothing else changes. -/
theorem assessed_eq {n w : Nat} {res : ReadResult} {r : Record} (h : s.find n = some r) :
    assessed n w res s =
      modifyRecord n
        (fun _ => r.evaluated s w (tagTests s r res) ((tagTests s r res).advice.bind (adviceAt s)))
        { s with advices := tableAfter s n (tagTests s r res) } := by
  have key : ∀ (f : TagFinding) (g : Record → Record),
      modifyRecord n g
          (if f.matchedNow = true then (match f.advice with | some i => matchEntry i n s | none => s) else s) =
        modifyRecord n g { s with advices := tableAfter s n f } := by
    rintro ⟨tag, tamper, advice, matchedNow, reasons⟩ g
    cases matchedNow <;> cases advice <;> rfl
  simp only [assessed, h]
  exact key _ _

/-- R79: the evaluation is made where the weight is latched and the reads are done. -/
theorem evaluateIfReady_ready {n w : Nat} {src : Source} {m : Measuring} {res : ReadResult}
    (h : s.station.state = .measuring n src m) (hw : m.settle = .latched w) (hr : m.reads = .done res) :
    evaluateIfReady s = requestPlace n src (assessed n w res s) := by
  simp only [evaluateIfReady, h, hw, hr]

/-- R79: while the settle timer runs there is no evaluation. -/
theorem evaluateIfReady_settling {n ms : Nat} {src : Source} {m : Measuring}
    (h : s.station.state = .measuring n src m) (hw : m.settle = .running ms) : evaluateIfReady s = s := by
  simp only [evaluateIfReady, h, hw]

/-- R79: while a read attempt runs there is no evaluation. -/
theorem evaluateIfReady_reading {n ms : Nat} {src : Source} {m : Measuring}
    (h : s.station.state = .measuring n src m) (hr : m.reads = .attempt ms) : evaluateIfReady s = s := by
  simp only [evaluateIfReady, h, hr]
  split <;> simp_all

/-- R80 to R84: the reasons of an evaluated record. -/
theorem hasReason_evaluated {r : Record} {w : Nat} {f : TagFinding} {a : Option Advice} {x : Reason} :
    hasReason (r.evaluated s w f a).reasons x = true ↔
      hasReason f.reasons x = true ∨
      x = .stale ∧ (∃ y, a = some y ∧ y.date ≠ r.arrivalDate ∧ y.date + 1 ≠ r.arrivalDate) ∨
      x = .wrongDepositor ∧ (∃ y, a = some y ∧ y.depositor ≠ r.depositor) ∨
      x = .weight ∧ (w = 30000 ∨ ∃ y d, a = some y ∧ y.weight = some d ∧
        (d + s.store.params.weightTolerance < w ∨ w + s.store.params.weightTolerance < d)) ∨
      x = .tamper ∧ f.tamper = .broken ∨
      x = .rule ∧ ∃ i, (r.evaluated s w f a).marks.get i = some .hold := by
  have hr : (r.evaluated s w f a).reasons =
      addReasonIf ((r.evaluated s w f a).marks.cells.any (· == some .hold)) .rule
        (commonReasons w f.tamper
          (match a with | some a => adviceReasons s.store.params r w a f.reasons | none => f.reasons)) := rfl
  have hmarks : (r.evaluated s w f a).marks.cells.any (· == some .hold) = true ↔
      ∃ i, (r.evaluated s w f a).marks.get i = some .hold := by
    rw [List.any_eq_true]
    constructor
    · rintro ⟨m, hm, e⟩
      obtain ⟨i, hi⟩ := Table.exists_get_of_mem hm
      exact ⟨i, by rw [hi]; exact beq_iff_eq.mp e⟩
    · rintro ⟨i, e⟩
      exact ⟨_, Table.get_mem _ i, beq_iff_eq.mpr e⟩
  have hstale : ∀ y : Advice, isStale r.arrivalDate y.date = true ↔
      y.date ≠ r.arrivalDate ∧ y.date + 1 ≠ r.arrivalDate := by
    intro y
    simp only [isStale, Bool.and_eq_true, bne_iff_ne, Bool.not_eq_true', Bool.and_eq_false_iff,
      decide_eq_false_iff_not, beq_eq_false_iff_ne, ne_eq]
    omega
  have hweight : ∀ d, outsideTolerance s.store.params.weightTolerance w d = true ↔
      d + s.store.params.weightTolerance < w ∨ w + s.store.params.weightTolerance < d := by
    intro d; simp [outsideTolerance]
  rw [hr, hasReason_addReasonIf, Bool.or_eq_true, Bool.and_eq_true, hmarks]
  simp only [commonReasons, hasReason_addReasonIf, Bool.or_eq_true, Bool.and_eq_true, decide_eq_true_eq, beq_iff_eq,
    Config.overRange]
  cases a with
  | none => simp only [reduceCtorEq, false_and, exists_const, eq_comm]; tauto
  | some y =>
    simp only [adviceReasons, hasReason_addReasonIf, Bool.or_eq_true, Bool.and_eq_true, decide_eq_true_eq, hstale,
      bne_iff_ne, Option.any_eq_true, hweight, Option.some.injEq, exists_eq_left', ne_eq]
    have he : (∃ d, y.weight = some d ∧
          (d + s.store.params.weightTolerance < w ∨ w + s.store.params.weightTolerance < d)) ↔
        ∃ z d, y = z ∧ z.weight = some d ∧
          (d + s.store.params.weightTolerance < w ∨ w + s.store.params.weightTolerance < d) :=
      ⟨fun ⟨d, h⟩ => ⟨y, d, rfl, h⟩, fun ⟨_, d, e, h⟩ => ⟨d, e ▸ h⟩⟩
    rw [← he]
    generalize (∃ d, y.weight = some d ∧ _) = far
    generalize (hasReason f.reasons x = true) = had
    generalize (∃ i, (r.evaluated s w f (some y)).marks.get i = some .hold) = hold
    cases x <;> simp [or_assoc, or_comm, or_left_comm]

/-- R84: the relation of a condition. -/
theorem test_iff {c : Condition} {v reference : Int} : c.test v reference = true ↔ Related c v reference := by
  cases c <;> simp [Condition.test, Related]

/-- Table 18: the quantity of a rule. -/
theorem quantityValue_eq {r : Record} {w : Nat} {a : Option Advice} {q : Quantity} :
    quantityValue s r w a q = quantityOf s r w a q := by
  cases q <;> simp only [quantityValue, quantityOf]
  · cases a with
    | none => rfl
    | some y => rfl
  · cases s.roster.get r.depositor <;> rfl

/-- R84: the check rules of an evaluated record. -/
theorem evaluated_rules {r : Record} {w : Nat} {f : TagFinding} {a : Option Advice} (i : Fin 8)
    (action : RuleAction) :
    (r.evaluated s w f a).marks.get i = some action ↔
      (s.station.rules.get i).action = action ∧
        ∃ v, quantityOf s r w a (s.station.rules.get i).quantity = some v ∧
          Related (s.station.rules.get i).condition v (s.station.rules.get i).reference := by
  have : (r.evaluated s w f a).marks.get i = ruleMark s r w a (s.station.rules.get i) := by
    simp [Record.evaluated]
  rw [this, ruleMark, quantityValue_eq]
  cases quantityOf s r w a (s.station.rules.get i).quantity with
  | none => simp
  | some v =>
    simp only [Option.some.injEq, exists_eq_left']
    rw [← test_iff]
    split <;> simp_all

/-- R80 to R84: an evaluation, in the words of Safety.lean. -/
theorem evaluatedAs {r : Record} {w : Nat} {res : ReadResult} :
    EvaluatedAs s r w res
      (r.evaluated s w (tagTests s r res) ((tagTests s r res).advice.bind (adviceAt s)))
      (tableAfter s r.number (tagTests s r res)) := by
  have hadv : (r.evaluated s w (tagTests s r res) ((tagTests s r res).advice.bind (adviceAt s))).advice =
      (tagTests s r res).advice := rfl
  have hnot : ∀ x, x ≠ .unreadable → x ≠ .duplicate → x ≠ .unadvised → x ≠ .tagChanged →
      ¬ hasReason (tagTests s r res).reasons x = true := by
    intro x h1 h2 h3 h4 hx
    rcases hasReason_tagTests hx with h | h | h | h
    · exact h1 h
    · exact h2 h
    · exact h3 h
    · exact h4 h
  have reason : ∀ x, x ∈ [Reason.unreadable, .duplicate, .unadvised, .tagChanged] →
      (hasReason (r.evaluated s w (tagTests s r res) ((tagTests s r res).advice.bind (adviceAt s))).reasons x = true ↔
        hasReason (tagTests s r res).reasons x = true) := by
    intro x hx
    rw [hasReason_evaluated]
    simp only [List.mem_cons, List.not_mem_nil, or_false] at hx
    rcases hx with rfl | rfl | rfl | rfl <;> simp
  unfold EvaluatedAs
  rw [hadv]
  refine ⟨?_, ⟨rfl, ?_, rfl, ?_, ?_, ?_, ?_⟩, ⟨evaluated_rules, ?_⟩, ?_, ?_, rfl⟩
  · refine ⟨tagTests_tag.1, congrArg some tagTests_tag.2, ?_, ?_, ?_, ?_, ?_, ?_⟩
    · rintro a ⟨hl, he, hm⟩
      obtain ⟨g, broken, rfl, _, hf⟩ := tagTests_of_looksUp hl
      have he : (s.advices.entries.find? fun a => a.tag == g) = some a := he
      have hk : lookup s g = (some a.index, 0) := by rw [lookup_eq, he]; simp [hm]
      rw [hf, hk]
      exact ⟨rfl, rfl⟩
    · intro hn
      by_cases hl : LooksUp s r res
      · obtain ⟨g, broken, rfl, _, hf⟩ := tagTests_of_looksUp hl
        have hk : (lookup s g).1 = none := by
          rw [lookup_eq]
          cases he : s.advices.entries.find? fun a => a.tag == g with
          | none => rfl
          | some a => simp [show a.matched ≠ none from fun hm => hn a ⟨hl, he, hm⟩]
        rw [hf, hk]
        exact ⟨rfl, fun _ => rfl, fun h => absurd hl h⟩
      · obtain ⟨h1, h2, h3, _⟩ := tagTests_of_not_looksUp hl
        refine ⟨by rw [tableAfter, h1]; rfl, ?_, fun _ => h3⟩
        rintro (h | h)
        · exact absurd h hl
        · exact h2 h
    · rw [reason .unreadable (by simp)]
      by_cases hl : LooksUp s r res
      · obtain ⟨g, broken, rfl, _, hf⟩ := tagTests_of_looksUp hl
        rw [hf, lookup_eq]
        simp only [reduceCtorEq, iff_false]
        split
        · simp
        · split <;> simp
      · rw [(tagTests_of_not_looksUp hl).2.2.2]; simp
    · rw [reason .duplicate (by simp)]
      by_cases hl : LooksUp s r res
      · have hl' := hl
        obtain ⟨g, broken, rfl, hc, hf⟩ := tagTests_of_looksUp hl
        have ht : ¬ ∃ x, (tagTests s r (.tag g broken)).tag = some x ∧ CarriedElsewhere s r.number x := by
          rw [hf]; rintro ⟨x, e, h⟩; cases e; exact hc h
        rw [show (r.evaluated s w _ _).tag = (tagTests s r (.tag g broken)).tag from rfl]
        simp only [ht, false_or, hl', true_and, entryRead]
        rw [hf, lookup_eq]
        cases he : s.advices.entries.find? fun a => a.tag == g with
        | none => simp
        | some a => by_cases hm : a.matched = none <;> simp [hm]
      · rw [(tagTests_of_not_looksUp hl).2.2.2]
        simp [hl]
        rfl
    · rw [reason .unadvised (by simp)]
      by_cases hl : LooksUp s r res
      · have hl' := hl
        obtain ⟨g, broken, rfl, hc, hf⟩ := tagTests_of_looksUp hl
        simp only [hl', true_and, entryRead]
        rw [hf, lookup_eq]
        cases he : s.advices.entries.find? fun a => a.tag == g with
        | none => simp
        | some a => by_cases hm : a.matched = none <;> simp [hm]
      · rw [(tagTests_of_not_looksUp hl).2.2.2]; simp [hl]
    · rw [reason .tagChanged (by simp)]
      by_cases hl : LooksUp s r res
      · have hl' := hl
        obtain ⟨g, broken, rfl, hc, hf⟩ := tagTests_of_looksUp hl
        have : ¬ ∃ old x b, r.tag = some old ∧ ReadResult.tag g broken = .tag x b ∧ x ≠ old := by
          rintro ⟨old, x, b, ho, e, hx⟩
          cases e
          obtain ⟨_, _, e, _, h | ⟨h, _⟩⟩ := hl'
          · rw [ho] at h; cases h
          · cases e; rw [ho] at h; cases h; exact hx rfl
        rw [hf, lookup_eq, iff_false_right this]
        cases he : s.advices.entries.find? fun a => a.tag == g with
        | none => simp
        | some a => by_cases hm : a.matched = none <;> simp [hm]
      · rw [(tagTests_of_not_looksUp hl).2.2.2]; simp
  · show some (kindOf _ _ _) = _
    unfold kindOf
    show some (match (tagTests s r res).advice.bind (adviceAt s) with | some a => a.kind | none => _) =
      some ((((tagTests s r res).advice.bind (adviceAt s)).map Advice.kind).getD _)
    cases (tagTests s r res).advice.bind (adviceAt s) <;> rfl
  · rw [hasReason_evaluated]
    simp [hnot .stale (by simp) (by simp) (by simp) (by simp)]
    rfl
  · rw [hasReason_evaluated]
    simp [hnot .wrongDepositor (by simp) (by simp) (by simp) (by simp)]
    rfl
  · rw [hasReason_evaluated]
    simp [hnot .weight (by simp) (by simp) (by simp) (by simp)]
    rfl
  · rw [hasReason_evaluated]
    simp [hnot .tamper (by simp) (by simp) (by simp) (by simp), Record.evaluated]
  · rw [hasReason_evaluated]
    simp [hnot .rule (by simp) (by simp) (by simp) (by simp)]
  · rw [← Bool.not_eq_true, hasReason_evaluated]
    simp [hnot .misrouted (by simp) (by simp) (by simp) (by simp)]
  · rw [← Bool.not_eq_true, hasReason_evaluated]
    simp [hnot .recovered (by simp) (by simp) (by simp) (by simp)]

/-- R80: an evaluation gives no NO_SPACE; the allocation may. -/
theorem noSpace_evaluated {r : Record} {w : Nat} {res : ReadResult} {a : Option Advice} :
    hasReason (r.evaluated s w (tagTests s r res) a).reasons .noSpace = false := by
  rw [← Bool.not_eq_true, hasReason_evaluated]
  intro h
  rcases hasReason_tagTests (by simpa using h) with h | h | h | h <;> cases h

/-- R106: what the allocation writes of a record leaves what its evaluation said of it. -/
theorem EvaluatedAs.placed {r r' : Record} {w : Nat} {res : ReadResult} {table : AdviceTable} {st : RecordState}
    {c : Option CompartmentId} {set : ReasonSet} (h : EvaluatedAs s r w res r' table)
    (hs : ∀ x, x ≠ .noSpace → hasReason set x = hasReason r'.reasons x) :
    EvaluatedAs s r w res { r' with state := st, compartment := c, reasons := set } table := by
  obtain ⟨⟨t1, t2, t3, t4, t5, t6, t7, t8⟩, ⟨a1, a2, a3, a4, a5, a6, a7⟩, ⟨m1, m2⟩, e1, e2, e3⟩ := h
  refine ⟨⟨t1, t2, t3, t4, ?_, ?_, ?_, ?_⟩, ⟨a1, a2, a3, ?_, ?_, ?_, ?_⟩, ⟨m1, ?_⟩, ?_, ?_, ?_⟩
  · exact (hs .unreadable (by simp)) ▸ t5
  · exact (hs .duplicate (by simp)) ▸ t6
  · exact (hs .unadvised (by simp)) ▸ t7
  · exact (hs .tagChanged (by simp)) ▸ t8
  · exact (hs .stale (by simp)) ▸ a4
  · exact (hs .wrongDepositor (by simp)) ▸ a5
  · exact (hs .weight (by simp)) ▸ a6
  · exact (hs .tamper (by simp)) ▸ a7
  · exact (hs .rule (by simp)) ▸ m2
  · exact (hs .misrouted (by simp)) ▸ e1
  · exact (hs .recovered (by simp)) ▸ e2
  · rw [e3]

/-! ## The allocation -/

/-- The first member of the ascending list of compartments with a property. -/
theorem find_finRange_eq_some {n : Nat} {p : Fin n → Bool} {c : Fin n} :
    (List.finRange n).find? p = some c ↔ p c = true ∧ ∀ d, d < c → ¬ p d = true := by
  rw [List.find?_eq_some_iff_getElem]
  constructor
  · rintro ⟨hp, i, hi, e, h⟩
    have hc : c.val = i := by rw [← e]; simp
    refine ⟨hp, fun d hd => ?_⟩
    have := h d.val (by rw [← hc]; exact hd)
    simpa using this
  · rintro ⟨hp, h⟩
    refine ⟨hp, c.val, by simp, by simp, fun j hj => ?_⟩
    have := h ⟨j, by omega⟩ hj
    simpa using this

/-- No compartment has a property. -/
theorem find_finRange_eq_none {n : Nat} {p : Fin n → Bool} :
    (List.finRange n).find? p = none ↔ ∀ d, ¬ p d = true := by
  simp [List.find?_eq_none]

/-- R103: a candidate, reserved or not, while no placement is pending. -/
theorem candidate_iff {kind : BagKind} {reserved : Bool} {c : CompartmentId} (h : pendingAt s c = 0) :
    (isCandidate s kind c && ((reservedBoxes s (classFor kind)).contains c == reserved)) = true ↔
      HasRoom s kind c ∧ (Reserved s c ↔ reserved = true) := by
  have hroom : isCandidate s kind c = true ↔ HasRoom s kind c := by
    unfold isCandidate HasRoom State.box
    rw [h]
    cases kind <;> simp only [classFor, Bool.and_eq_true, beq_iff_eq, decide_eq_true_eq, add_zero] <;>
      constructor <;> rintro ⟨h1, h2⟩ <;> simp_all [capacity]
  rw [Bool.and_eq_true, hroom]
  refine and_congr_right fun hr => ?_
  have hcls : (s.box c).cls = classFor kind := by
    unfold HasRoom at hr; unfold State.box classFor
    cases kind
    · exact hr.2.2.1
    · exact hr.2.2.1
  have hres : (reservedBoxes s (classFor kind)).contains c = true ↔ Reserved s c := by
    rw [← hcls]
    change isReserved s c = true ↔ _
    have hk : ∀ k, reserveOf s k =
        match k with
        | .standard => s.cabinet.reserveStandard
        | .coin => s.cabinet.reserveCoin := by
      intro k; cases k <;> rfl
    rw [isReserved_eq, decide_eq_true_iff, hk]
    exact Iff.rfl
  rw [beq_iff_eq, ← hres]
  cases reserved <;> simp

/-- R104: the compartment of the accepted pass. -/
theorem acceptedPass_eq_some {kind : BagKind} {handling : Option Handling} {c : CompartmentId}
    (h : ∀ c, pendingAt s c = 0) :
    acceptedPass s kind handling = some c ↔ AcceptedPass s kind handling c := by
  have first : ∀ d,
      ((isCandidate s kind d && ((reservedBoxes s (classFor kind)).contains d == false)) = true ∧
        (handling.isSome && (s.box d).handling == handling) = true) ↔ Matching s kind handling d := by
    intro d
    rw [candidate_iff (h d)]
    simp [Matching, State.box, and_assoc, Option.isSome_iff_ne_none]
  have second : ∀ d,
      ((isCandidate s kind d && ((reservedBoxes s (classFor kind)).contains d == false)) = true ∧
        ((s.box d).occupants.isEmpty && pendingAt s d == 0 && (s.box d).handling.isNone) = true) ↔
          Fresh s kind d := by
    intro d
    rw [candidate_iff (h d)]
    simp [Fresh, State.box, and_assoc, h d]
  unfold acceptedPass AcceptedPass candidates Lowest
  simp only [List.find?_filter]
  split
  · rename_i x hx
    rw [find_finRange_eq_some] at hx
    simp only [decide_eq_true_eq, first] at hx
    constructor
    · rintro e; cases e; exact .inl hx
    · rintro (⟨hc, hl⟩ | ⟨hn, _⟩)
      · rcases lt_trichotomy x c with hlt | rfl | hlt
        · exact absurd hx.1 (hl x hlt)
        · rfl
        · exact absurd hc (hx.2 c hlt)
      · exact absurd hx.1 (hn x)
  · rename_i hx
    rw [find_finRange_eq_none] at hx
    simp only [decide_eq_true_eq, first] at hx
    rw [find_finRange_eq_some]
    simp only [decide_eq_true_eq, second]
    constructor
    · exact fun e => .inr ⟨hx, e⟩
    · rintro (⟨hc, _⟩ | ⟨_, e⟩)
      · exact absurd hc (hx c)
      · exact e

/-- R105: the compartment of the held pass. -/
theorem heldPass_eq_some {kind : BagKind} {c : CompartmentId} (h : ∀ c, pendingAt s c = 0) :
    heldPass s kind = some c ↔ HeldPass s kind c := by
  have kept : ∀ d, (isCandidate s kind d && ((reservedBoxes s (classFor kind)).contains d == true)) = true ↔
      HasRoom s kind d ∧ Reserved s d := by
    intro d; rw [candidate_iff (h d)]; simp
  have free : ∀ d, (isCandidate s kind d && ((reservedBoxes s (classFor kind)).contains d == false)) = true ↔
      HasRoom s kind d ∧ ¬ Reserved s d := by
    intro d; rw [candidate_iff (h d)]; simp
  unfold heldPass HeldPass candidates Lowest
  simp only [List.head?_filter]
  split
  · rename_i x hx
    rw [find_finRange_eq_some] at hx
    simp only [kept] at hx
    constructor
    · rintro e; cases e; exact .inl hx
    · rintro (⟨hc, hl⟩ | ⟨hn, _⟩)
      · rcases lt_trichotomy x c with hlt | rfl | hlt
        · exact absurd hx.1 (hl x hlt)
        · rfl
        · exact absurd hc (hx.2 c hlt)
      · exact absurd hx.1 (hn x)
  · rename_i hx
    rw [find_finRange_eq_none] at hx
    simp only [kept] at hx
    have same : ∀ d, HasRoom s kind d ∧ ¬ Reserved s d ↔ HasRoom s kind d := by
      intro d; exact ⟨And.left, fun hr => ⟨hr, fun he => hx d ⟨hr, he⟩⟩⟩
    rw [find_finRange_eq_some]
    simp only [free, same]
    constructor
    · exact fun e => .inr ⟨hx, e⟩
    · rintro (⟨hc, _⟩ | ⟨_, e⟩)
      · exact absurd hc (hx c)
      · exact e

/-- R105: the held pass finds no place exactly where no compartment has room. -/
theorem heldPass_eq_none {kind : BagKind} (h : ∀ c, pendingAt s c = 0) :
    heldPass s kind = none ↔ ∀ c, ¬ HasRoom s kind c := by
  constructor
  · intro e c hr
    have none : ∀ d, ¬ HeldPass s kind d := fun d hd => by
      rw [(heldPass_eq_some h).mpr hd] at e; cases e
    have lowest : ∀ p : CompartmentId → Prop, (∃ d, p d) → ∃ d, Lowest p d := by
      intro p hp
      classical
      obtain ⟨d, hd, hm⟩ := WellFounded.has_min (wellFounded_lt (α := CompartmentId)) {d | p d} hp
      exact ⟨d, hd, fun x hx hpx => hm x hpx hx⟩
    by_cases hk : ∃ d, HasRoom s kind d ∧ Reserved s d
    · obtain ⟨d, hd⟩ := lowest _ hk
      exact none d (.inl hd)
    · obtain ⟨d, hd⟩ := lowest _ ⟨c, hr⟩
      exact none d (.inr ⟨fun x hx => hk ⟨x, hx⟩, hd⟩)
  · intro hn
    rw [Option.eq_none_iff_forall_ne_some]
    intro c e
    rcases (heldPass_eq_some h).mp e with ⟨⟨hr, _⟩, _⟩ | ⟨_, hr, _⟩
    · exact hn c hr
    · exact hn c hr

/-- R104, R105: the answer of the allocation: the accepted pass, then the held pass with NO_SPACE; for a bag with
reasons the held pass alone. -/
theorem allocate_eq_some {accepted noSpace : Bool} {kind : BagKind} {handling : Option Handling} {c : CompartmentId}
    (h : ∀ c, pendingAt s c = 0) (e : allocate s accepted kind handling = some (c, noSpace)) :
    accepted = true ∧ noSpace = false ∧ AcceptedPass s kind handling c ∨
      (accepted = true ∧ noSpace = true ∧ (∀ d, ¬ AcceptedPass s kind handling d) ∨
        accepted = false ∧ noSpace = false) ∧ HeldPass s kind c := by
  unfold allocate at e
  cases accepted with
  | true =>
    simp only [if_true] at e
    split at e
    · rename_i x hx
      cases e
      exact .inl ⟨rfl, rfl, (acceptedPass_eq_some h).mp hx⟩
    · rename_i hx
      obtain ⟨x, hp, he⟩ := Option.map_eq_some_iff.mp e
      cases he
      refine .inr ⟨.inl ⟨rfl, rfl, fun d hd => ?_⟩, (heldPass_eq_some h).mp hp⟩
      rw [(acceptedPass_eq_some h).mpr hd] at hx
      cases hx
  | false =>
    obtain ⟨x, hp, he⟩ := Option.map_eq_some_iff.mp e
    cases he
    exact .inr ⟨.inr ⟨rfl, rfl⟩, (heldPass_eq_some h).mp hp⟩

/-- R105: no place is answered exactly where no compartment has room. -/
theorem allocate_eq_none {accepted : Bool} {kind : BagKind} {handling : Option Handling} (h : ∀ c, pendingAt s c = 0)
    (e : allocate s accepted kind handling = none) (c : CompartmentId) : ¬ HasRoom s kind c := by
  refine (heldPass_eq_none h).mp ?_ c
  unfold allocate at e
  split at e
  · split at e
    · cases e
    · exact Option.map_eq_none_iff.mp e
  · exact Option.map_eq_none_iff.mp e

/-- R86: a record is accepted when it carries no reason. -/
theorem accepted_iff {r : Record} : r.accepted = true ↔ ∀ x : Reason, hasReason r.reasons x = false := by
  rw [← eq_zero_iff_hasReason]; simp [Record.accepted]

/-- A record replaced under its number. -/
theorem RecordAt.replace {n : Nat} {r new : Record} (h : RecordAt s n r) (hn : new.number = n) :
    RecordAt (modifyRecord n (fun _ => new) s) n new := by
  have key : ∀ records : List Record, (records.find? fun x => x.number == n) = some r →
      (modifyIn n (fun _ => new) records).find? (fun x => x.number == n) = some new := by
    intro records h
    induction records with
    | nil => cases h
    | cons x xs ih =>
      simp only [modifyIn, List.map_cons, List.find?_cons] at h ih ⊢
      by_cases hx : x.number = n
      · simp [hx, hn]
      · simp only [beq_eq_false_iff_ne.mpr hx] at h
        simp only [if_neg hx, beq_eq_false_iff_ne.mpr hx]
        exact ih h
  exact key _ h

/-- R106: a place granted is the answer of the allocation, carried out. -/
theorem placeGranted_of_record {n : Nat} {src : Source} {r : Record} (h : RecordAt s n r) :
    placeGranted n src s =
      (allocate s r.accepted (r.kind.getD .note) r.handling).map fun a =>
        setStation (.placing n src a.1 (s.store.params.transitTimeout * 1000))
          (modifyRecord n
            (fun r => { r with state := .routing, compartment := some a.1,
                               reasons := addReasonIf a.2 .noSpace r.reasons }) s) := by
  have hf : s.find n = some r := h
  unfold placeGranted
  rw [hf]
  cases ha : allocate s r.accepted (r.kind.getD .note) r.handling with
  | none => simp only [ha]; rfl
  | some a => simp only [ha]; rfl

end Sys2Proof.Machine
end

