-- ==== Sys2Proof/Laws/Relock.lean ====
section
/-! SUPPORT. A bank that leaves HELD (R131, R144), said once: which doors are relocked, which links are told, and what
follows, for every cause. -/

namespace Sys2Proof.Machine

variable {s : State} {lost : CompartmentId → LinkId → Bool}

/-- R144: whose operation is abandoned at a compartment. -/
theorem abandonedAt_eq_some {c : CompartmentId} {l : LinkId} :
    abandonedAt lost s c = some l ↔
      (∃ w d ms, (s.cabinet.compartments.get c).door = .unlocked (.command l w d) ms) ∧ lost c l = true := by
  unfold abandonedAt
  split
  · rename_i k w d ms h
    rw [h]
    constructor
    · intro e
      split at e
      · rename_i hl; cases e; exact ⟨⟨w, d, ms, rfl⟩, hl⟩
      · cases e
    · rintro ⟨⟨w', d', ms', e⟩, hl⟩
      cases e; rw [if_pos hl]
  · rename_i h
    exact ⟨nofun, fun ⟨⟨w, d, ms, e⟩, _⟩ => absurd e (h l w d ms)⟩

/-- R144: the end of an abandoned operation at its link. -/
theorem longEnded_abandoned {k : Link} : k.longEnded .abandoned [] = k.abandoned := by
  unfold Link.longEnded Link.abandoned
  rcases k.long with _ | ⟨c, tag, d⟩
  · rfl
  · cases d <;> rfl

/-- An operation ends once. -/
theorem Link.abandoned_abandoned {k : Link} : k.abandoned.abandoned = k.abandoned := by
  rcases h : k.long with _ | ⟨c, tag, d⟩
  · simp [Link.abandoned, h]
  · cases d <;> simp [Link.abandoned, h]

/-- A compartment after a relocking. -/
@[simp] theorem relocked_box {c : CompartmentId} :
    (relocked lost s).cabinet.compartments.get c =
      if abandonedAt lost s c = none then s.cabinet.compartments.get c
      else { s.cabinet.compartments.get c with door := .locked } := by
  simp [relocked]

/-- A link after a relocking. -/
@[simp] theorem relocked_link {l : LinkId} :
    (relocked lost s).links.get l =
      if ∃ c, abandonedAt lost s c = some l then (s.links.get l).abandoned else s.links.get l := by
  simp [relocked]

/-- Two states that differ at most in compartments and links, and agree on each of them. -/
theorem eq_of_boxes_links {t u : State}
    (h : t = { u with cabinet := { u.cabinet with compartments := t.cabinet.compartments }, links := t.links })
    (hb : ∀ c, t.cabinet.compartments.get c = u.cabinet.compartments.get c)
    (hl : ∀ l, t.links.get l = u.links.get l) : t = u := by
  rw [h, Table.ext_get hb, Table.ext_get hl]

/-- Where no operation is abandoned nothing is relocked. -/
theorem relocked_of_none (h : ∀ c, abandonedAt lost s c = none) : relocked lost s = s := by
  have hc : (Table.tabulate fun c => s.cabinet.compartments.get c) = s.cabinet.compartments :=
    Table.ext_get fun _ => by simp
  have hl : (Table.tabulate fun l => s.links.get l) = s.links := Table.ext_get fun _ => by simp
  simp [relocked, h, hc, hl]

/-- R144: two relockings are one. -/
theorem relocked_relocked {more : CompartmentId → LinkId → Bool} :
    relocked more (relocked lost s) = relocked (fun c l => lost c l || more c l) s := by
  have key : ∀ c l, abandonedAt (fun c l => lost c l || more c l) s c = some l ↔
      abandonedAt lost s c = some l ∨ abandonedAt lost s c = none ∧ abandonedAt more s c = some l := by
    intro c l
    have one : ∀ k, abandonedAt lost s c = some k → abandonedAt more s c = some l → k = l := by
      intro k h1 h2
      obtain ⟨⟨w, d, ms, e⟩, _⟩ := abandonedAt_eq_some.mp h1
      obtain ⟨⟨w', d', ms', e'⟩, _⟩ := abandonedAt_eq_some.mp h2
      rw [e] at e'; cases e'; rfl
    cases h : abandonedAt lost s c with
    | none =>
      simp only [abandonedAt_eq_some, Bool.or_eq_true, reduceCtorEq, false_or, true_and]
      constructor
      · rintro ⟨hd, hl | hl⟩
        · rw [abandonedAt_eq_some.mpr ⟨hd, hl⟩] at h; cases h
        · exact ⟨hd, hl⟩
      · rintro ⟨hd, hl⟩; exact ⟨hd, .inr hl⟩
    | some k =>
      simp only [abandonedAt_eq_some, Bool.or_eq_true, reduceCtorEq, false_and, or_false, Option.some.injEq]
      constructor
      · rintro ⟨hd, hl | hl⟩
        · rw [abandonedAt_eq_some.mpr ⟨hd, hl⟩] at h; exact (Option.some.inj h).symm
        · exact one k h (abandonedAt_eq_some.mpr ⟨hd, hl⟩)
      · rintro rfl
        obtain ⟨hd, hl⟩ := abandonedAt_eq_some.mp h
        exact ⟨hd, .inl hl⟩
  have again : ∀ c, abandonedAt more (relocked lost s) c =
      if abandonedAt lost s c = none then abandonedAt more s c else none := by
    intro c
    by_cases h : abandonedAt lost s c = none
    · rw [if_pos h]; unfold abandonedAt; simp only [relocked, Table.get_tabulate, if_pos h]
    · rw [if_neg h]; unfold abandonedAt; simp only [relocked, Table.get_tabulate, if_neg h]
  have keyNone : ∀ c, abandonedAt (fun c l => lost c l || more c l) s c = none ↔
      abandonedAt lost s c = none ∧ abandonedAt more s c = none := by
    intro c
    simp only [Option.eq_none_iff_forall_ne_some, ne_eq, key, not_or, not_and]
    constructor
    · intro h; exact ⟨fun l => (h l).1, fun l => (h l).2 fun k => (h k).1⟩
    · rintro ⟨h1, h2⟩ l; exact ⟨h1 l, fun _ => h2 l⟩
  apply eq_of_boxes_links rfl
  · intro c
    simp only [relocked_box, again, keyNone]
    by_cases h1 : abandonedAt lost s c = none <;> by_cases h2 : abandonedAt more s c = none <;> simp [h1, h2]
  · intro l
    simp only [relocked_link, again, key]
    by_cases h1 : ∃ c, abandonedAt lost s c = some l <;>
      by_cases h2 : ∃ c, (if abandonedAt lost s c = none then abandonedAt more s c else none) = some l
    · rw [if_pos h2, if_pos h1, if_pos ⟨_, .inl h1.choose_spec⟩, Link.abandoned_abandoned]
    · rw [if_neg h2, if_pos h1, if_pos ⟨_, .inl h1.choose_spec⟩]
    · obtain ⟨c, hc⟩ := h2
      split at hc
      · rename_i hn
        rw [if_pos ⟨c, by rw [if_pos hn]; exact hc⟩, if_neg h1, if_pos ⟨c, .inr ⟨hn, hc⟩⟩]
      · cases hc
    · rw [if_neg h2, if_neg h1, if_neg]
      rintro ⟨c, hc | ⟨hn, hc⟩⟩
      · exact h1 ⟨c, hc⟩
      · exact h2 ⟨c, by rw [if_pos hn]; exact hc⟩

/-- R144: one door machine told. -/
theorem relockDoor_eq {l : LinkId} {a : CompartmentId} :
    relockDoor l s a = relocked (fun c k => c == a && k == l) s := by
  unfold relockDoor State.box
  split
  · rename_i k w d ms h
    split
    · rename_i hk
      subst hk
      have ha : ∀ c, abandonedAt (fun c x => c == a && x == k) s c = if c = a then some k else none := by
        intro c
        by_cases hc : c = a
        · subst hc; simp [abandonedAt, h]
        · rw [if_neg hc]; unfold abandonedAt; split <;> simp [hc]
      unfold endDoorOp endLong modifyLink setDoor modifyBox
      apply eq_of_boxes_links rfl
      · intro c
        by_cases hc : c = a
        · subst hc; simp [ha]
        · simp [ha, hc, Table.get_set_ne _ _ hc]
      · intro x
        by_cases hx : x = k
        · subst hx
          have : ∃ c, abandonedAt (fun c y => c == a && y == x) s c = some x := ⟨a, by simp [ha]⟩
          simp [this, longEnded_abandoned]
        · have : ¬ ∃ c, abandonedAt (fun c y => c == a && y == k) s c = some x := by
            rintro ⟨c, hc⟩
            rw [ha] at hc
            split at hc
            · exact hx (Option.some.inj hc).symm
            · cases hc
          simp [this, Table.get_set_ne _ _ hx]
    · rename_i hk
      refine (relocked_of_none fun c => ?_).symm
      by_cases hc : c = a
      · subst hc; simp [abandonedAt, h, hk]
      · unfold abandonedAt; split <;> simp [hc]
  · rename_i h
    refine (relocked_of_none fun c => ?_).symm
    by_cases hc : c = a
    · subst hc
      unfold abandonedAt
      split
      · rename_i k w d ms e; exact absurd e (h k w d ms)
      · rfl
    · unfold abandonedAt; split <;> simp [hc]

/-- R131, R144: the door machines of a bank told. -/
theorem relockBank_eq {b : Fin 4} {l : LinkId} :
    relockBank b l s = relocked (fun c k => bankOf c == b && k == l) s := by
  have key : ∀ (cs : List CompartmentId) (s : State),
      cs.foldl (relockDoor l) s = relocked (fun c k => cs.contains c && k == l) s := by
    intro cs
    induction cs with
    | nil =>
      intro s
      refine (relocked_of_none fun c => ?_).symm
      unfold abandonedAt; split <;> simp
    | cons a cs ih =>
      intro s
      rw [List.foldl_cons, relockDoor_eq, ih, relocked_relocked]
      congr 1
      funext c k
      rw [List.contains_cons, Bool.and_or_distrib_right]
  rw [relockBank, key]
  congr 1
  funext c k
  congr 1
  rw [Bool.eq_iff_iff]
  simp

/-- A relocking reads and writes no claims. -/
theorem relocked_claims {c : Claims} :
    relocked lost { s with claims := c } = { relocked lost s with claims := c } := rfl

/-- Table 20: the bank a resource is. -/
theorem asBank_eq_some {r : Fin 9} {b : Fin 4} : asBank r = some b ↔ r = bankResource b := by
  revert r b; decide

/-- R119, R127, R131: one resource retained, and the doors of a bank that leaves HELD relocked. -/
theorem retainOne_eq {r : Fin 9} :
    retainOne s r =
      { relocked (fun c l => decide (bankResource (bankOf c) = r) && holds s l r) s with
        claims := { s.claims with resources := s.claims.resources.set r .retained } } := by
  have none_of (h : ∀ c l, (decide (bankResource (bankOf c) = r) && holds s l r) = false) :
      relocked (fun c l => decide (bankResource (bankOf c) = r) && holds s l r) s = s :=
    relocked_of_none fun c => by unfold abandonedAt; split <;> simp [h]
  unfold retainOne
  split
  · rename_i l k h
    unfold toldLost
    split
    · rename_i b hb
      have hr := asBank_eq_some.mp hb
      rw [relockBank_eq, setHolder, relocked_claims]
      have : (fun c k => bankOf c == b && k == l) =
          fun c x => decide (bankResource (bankOf c) = r) && holds s x r := by
        funext c x
        have hh : holds s x r = (x == l) := by
          unfold holds; rw [h]; exact Bool.beq_comm
        have hb : decide (bankResource (bankOf c) = r) = (bankOf c == b) := by
          rw [hr, Bool.eq_iff_iff]
          simp only [decide_eq_true_eq, beq_iff_eq, bankResource, Fin.ext_iff]
        rw [hh, hb]
      rw [this]
    · rename_i hb
      rw [none_of]
      · rfl
      · intro c x
        have : ¬ bankResource (bankOf c) = r := fun e => by
          rw [asBank_eq_some.mpr e.symm] at hb; cases hb
        simp [this]
  · rename_i h
    rw [none_of]
    · rfl
    · intro c x
      have : holds s x r = false := by
        unfold holds
        split
        · rename_i l k e; exact absurd e (h l k)
        · rfl
      simp [this]

/-- R119, R127: several resources retained in one event. -/
theorem foldl_retainOne (rs : List (Fin 9)) (s : State) :
    rs.foldl retainOne s =
      { relocked (fun c l => rs.contains (bankResource (bankOf c)) && holds s l (bankResource (bankOf c))) s with
        claims :=
          { s.claims with
            resources := .tabulate fun r => if r ∈ rs then .retained else s.claims.resources.get r } } := by
  induction rs generalizing s with
  | nil =>
    rw [relocked_of_none fun c => by unfold abandonedAt; split <;> simp]
    have : (Table.tabulate fun r => s.claims.resources.get r) = s.claims.resources := Table.ext_get fun _ => by simp
    simp [this]
  | cons a rs ih =>
    rw [List.foldl_cons, ih, retainOne_eq, relocked_claims, relocked_relocked]
    refine congrArg₂ (fun l c => { relocked l s with claims := c }) (funext fun c => funext fun l => ?_)
      (congrArg (fun r => { s.claims with resources := r }) (Table.ext_get fun r => ?_))
    · simp only [holds, State.holder, List.contains_cons, Table.get_set]
      by_cases h : bankResource (bankOf c) = a
      · simp [h]
      · simp [h, beq_eq_false_iff_ne.mpr h]
    · by_cases h : r = a
      · simp [h]
      · simp [h, Table.get_set_ne _ _ h]

/-- A door fewer is UNLOCKED exactly when one was relocked. -/
theorem unlockedDoors_relocked :
    unlockedDoors (relocked lost s) < unlockedDoors s ↔ ∃ c, abandonedAt lost s c ≠ none := by
  have cells : ∀ t : Table Compartment 48, t.cells = (List.finRange 48).map t.get := by
    intro t
    apply List.ext_getElem (by simp [t.size])
    intro i h1 h2
    simp [Table.get]
  have after : (fun b : Compartment => b.door.isUnlocked) ∘ (relocked lost s).cabinet.compartments.get =
      fun c => (s.cabinet.compartments.get c).door.isUnlocked && (abandonedAt lost s c).isNone := by
    funext c
    simp only [Function.comp, relocked, Table.get_tabulate]
    cases h : abandonedAt lost s c <;> simp [Door.isUnlocked]
  have unlocked : ∀ c, abandonedAt lost s c ≠ none → (s.cabinet.compartments.get c).door.isUnlocked = true := by
    intro c h
    obtain ⟨l, hl⟩ := Option.ne_none_iff_exists'.mp h
    obtain ⟨⟨w, d, ms, e⟩, _⟩ := abandonedAt_eq_some.mp hl
    rw [e]; rfl
  unfold unlockedDoors
  rw [cells, cells, List.countP_map, List.countP_map, after, List.countP_eq_length_filter,
    List.countP_eq_length_filter, ← List.filter_filter]
  rw [List.filter_comm]
  refine List.length_filter_lt_length_iff_exists.trans ?_
  constructor
  · rintro ⟨c, _, h⟩
    exact ⟨c, fun e => h (by rw [e]; rfl)⟩
  · rintro ⟨c, h⟩
    refine ⟨c, List.mem_filter.mpr ⟨List.mem_finRange c, unlocked c h⟩, ?_⟩
    simpa using h

/-- R107, R144: what follows a relocking. -/
theorem afterRelock_relocked {c : Claims} :
    afterRelock s { relocked lost s with claims := c } = relockedOnce lost { s with claims := c } := by
  unfold afterRelock relockedOnce
  have h1 : unlockedDoors { relocked lost s with claims := c } = unlockedDoors (relocked lost s) := rfl
  have h2 : ∀ x, abandonedAt lost { s with claims := c } x = abandonedAt lost s x := fun _ => rfl
  simp only [h1, h2, relocked_claims]
  by_cases h : ∃ x, abandonedAt lost s x ≠ none
  · rw [if_pos (unlockedDoors_relocked.mpr h), if_pos h]
  · rw [if_neg fun e => h (unlockedDoors_relocked.mp e), if_neg h, relocked_of_none]
    intro x
    by_contra e
    exact h ⟨x, e⟩

/-- R119, R127, R131, R144: several resources retained, with everything that follows. -/
theorem retainAll_eq {rs : List (Fin 9)} :
    retainAll rs s =
      relockedOnce (fun c l => rs.contains (bankResource (bankOf c)) && holds s l (bankResource (bankOf c)))
        { s with
          claims :=
            { s.claims with
              resources := .tabulate fun r => if r ∈ rs then .retained else s.claims.resources.get r } } := by
  rw [retainAll, foldl_retainOne, afterRelock_relocked]

/-- A relocking comes before or after the receipt of a frame. -/
theorem relocked_received {l : LinkId} : relocked lost (received l s) = received l (relocked lost s) := by
  have h : ∀ c, abandonedAt lost (received l s) c = abandonedAt lost s c := fun _ => rfl
  have hk : ∀ k : Link, k.receivedWhole.abandoned = k.abandoned.receivedWhole := by
    intro k
    rcases e : k.long with _ | ⟨c, tag, d⟩
    · simp [Link.abandoned, Link.receivedWhole, e]
    · cases d <;> simp [Link.abandoned, Link.receivedWhole, e]
  unfold relocked
  simp only [h]
  unfold received modifyLink
  congr 1
  apply Table.ext_get
  intro x
  by_cases hx : x = l
  · subst hx; simp only [Table.get_tabulate, Table.get_set_self]; split
    · exact hk _
    · rfl
  · simp [Table.get_set_ne _ _ hx]

/-- A relocking with its retry comes before or after the receipt of a frame. -/
theorem relockedOnce_received {l : LinkId} :
    relockedOnce lost (received l s) = received l (relockedOnce lost s) := by
  unfold relockedOnce
  have h : ∀ c, abandonedAt lost (received l s) c = abandonedAt lost s c := fun _ => rfl
  simp only [h]
  split
  · rw [relocked_received, retry_received, testLowMarks_received]
  · rfl

end Sys2Proof.Machine
end

