-- ==== Sys2Proof/Tests/Slice0.lean ====
section
/-! SUPPORT. Tests: an ill-formed term for each check of WellFormed, worked steps of the manual on small states, and
for every statement with hypotheses a state and operands that meet them, clause by clause. -/

namespace Sys2Proof.Machine.Slice0

open Sys2Proof Sys2Proof.Machine

/-! ## Small states -/

/-- A depositor with credential 77, all four chutes, an allowance of 5 and 3 bags remaining. -/
def payer : Depositor := ⟨77, .active, 15, 5, 3, 1, .note, 0, 0, 0, 0⟩

/-- State.reset with the store VALID, the clock VALID at second 1,000 of date 10, and one depositor. -/
def bench : State :=
  { State.reset with
    store := { State.reset.store with valid := true }
    clock := ⟨1000, 10, .valid, none⟩
    roster := State.reset.roster.set 0 (some payer) }

/-- Record `n` of that depositor, from chute 1, with tag 500, in a state. -/
def bag (n : Nat) (st : RecordState) : Record := { newRecord n 0 1 bench.clock st with tag := some 500 }

/-- A state whose register holds just these records. -/
def holding (rs : List Record) (s : State) : State := { s with register := { s.register with records := rs } }

/-- A state with a purge walk on its way. -/
def walking (w : Walk) (s : State) : State := { s with register := { s.register with walk := some w } }

/-- A chute in a state. -/
def chuteIn (c : ChuteId) (st : ChuteState) (s : State) : State := modifyChute c (fun k => { k with state := st }) s

/-- A compartment with a door state and a list of occupants. -/
def boxIn (c : CompartmentId) (d : Door) (ns : List Nat) (s : State) : State :=
  modifyBox c (fun b => { b with door := d, occupants := ns }) s

/-- The safe OPEN and a resource in a holder state. -/
def claimedBy (r : Fin 9) (h : Holder) (s : State) : State :=
  setHolder r h { s with claims := { s.claims with safe := .opened } }

/-- A link with a phase, held records and a long command. -/
def linkIn (l : LinkId) (p : Phase) (rs : List ResultRecord) (c : Option LongCommand) (s : State) : State :=
  modifyLink l (fun k => { k with phase := p, held := rs, long := c }) s

/-- A manifest of number 4 open with these entries. -/
def manifestOf (ns : List Nat) (s : State) : State := setManifest (some ⟨4, none, ns⟩) s

/-- An advice entry in slot 0 for tag 500. -/
def note : Advice := ⟨0, 500, 0, 10, 1000, 0, none, .note, .through, none⟩

/-- A state whose advice table holds just these entries. -/
def advised (as : List Advice) (s : State) : State := { s with advices := { s.advices with entries := as } }

/-- The state an outcome goes on with. -/
def after (o : Host.Outcome State Fault Refusal) (s : State) : State :=
  match o with
  | .next t => t
  | .fault _ => s
  | .refused _ => s

/-- Commands run one after another. -/
def runAll (is : List Instr) (s : State) : State := is.foldl (fun s i => after (exec i s) s) s

/-! ## WellFormed refuses -/

theorem test_illFormed_frameTag : (Instr.collect 0 256).wellFormed = false := by decide
theorem test_illFormed_byte : (Instr.openDoor 1 0 256).wellFormed = false := by decide
theorem test_illFormed_twoBytes : (Instr.purge 1 0 65536).wellFormed = false := by decide
theorem test_illFormed_threeBytes : (Instr.noticeEnable 1 0 16777216).wellFormed = false := by decide
theorem test_illFormed_fourBytes : (Instr.cancelAdvice 1 0 4294967296).wellFormed = false := by decide
theorem test_illFormed_optionalByte : (Instr.readChute 1 0 (some 256)).wellFormed = false := by decide
theorem test_illFormed_pair : (Instr.setClock 0 0 (some 1) none).wellFormed = false := by decide
theorem test_illFormed_parameterPair : (Instr.setParameter 0 0 none (some 1)).wellFormed = false := by decide
theorem test_illFormed_entryTag : (Instr.entryReport 0 (some 0)).wellFormed = false := by decide
theorem test_illFormed_scanTag : (Instr.scanDone 0 [1000000000]).wellFormed = false := by decide
theorem test_illFormed_scanRepeat : (Instr.scanDone 0 [5, 5]).wellFormed = false := by decide
theorem test_illFormed_windowKind :
    (Instr.setWindow 0 0 2 0 (some (.protection 1 0 0 0 0))).wellFormed = false := by decide
theorem test_illFormed_advice :
    (Instr.loadAdvice 1 0 [⟨1, 256, 0, 0, 0, none, 1, 1⟩]).wellFormed = false := by decide
theorem test_illFormed_depositor : (Instr.setDepositor 1 0 0 ⟨1099511627776, 1, 0, 1, 1, 1⟩).wellFormed = false := by
  decide
theorem test_illFormed_rule : (Instr.setRule 1 0 1 ⟨1, 1, 2147483648, 1⟩).wellFormed = false := by decide
theorem test_illFormed_list : (Instr.reportProgram 1 0 1 5 [256]).wellFormed = false := by decide

/-! ## Frames -/

set_option maxRecDepth 20000 in
/-- R187: the check of the nine digits 1 to 9 is 0x29B1. -/
theorem test_check : crc16 [0x31, 0x32, 0x33, 0x34, 0x35, 0x36, 0x37, 0x38, 0x39] = 0x29B1#16 := by decide

set_option maxRecDepth 20000 in
/-- Table 31, Table 35: CLAIM (0x2A) of BANK0 with tag 3, byte by byte, is the command it stands for. -/
theorem test_claimFrame :
    exec (.frameReceived 1 ([0xA5, 0x01, 0x01, 0x03, 0x2A, 0x01, 0x00] ++
        bytesOf 2 (crc16 [0x01, 0x03, 0x2A, 0x01, 0x00]).toNat)) bench = exec (.claim 1 3 1) bench := by rfl

set_option maxRecDepth 20000 in
/-- R188: the DONE of a completed command with tag 3, code OK and no results, as it is sent. -/
theorem test_doneFrame :
    Frame.bytes (.done 3 .ok 0 false) false =
      [0xA5, 0x01, 0x02, 0x03, 0x00, 0x00, 0x00] ++ bytesOf 2 (crc16 [0x02, 0x03, 0x00, 0x00, 0x00]).toNat := by
  decide

/-- R190: a custody record takes 43 bytes. -/
theorem test_recordLength : (recordBytes (bag 7 .stored)).length = 43 := by decide

/-! ## Steps -/

/-- Log entry 3: State.reset is what a reset with the store invalid gives with every line high and every door closed. -/
theorem test_resetState : exec (.resetN ⟨0, 15, 0, 0⟩) State.reset = .next State.reset := by rfl

/-- R51, R54, R55, R68: a credential, a DROP and an arrival put the bag into the station. -/
theorem test_arrival :
    (runAll [.credentialPresented 2 77, .drop 2, .throatEntryReport 2] bench).station.state =
      .loading 1 (.throat 2) 5000 := by decide

/-- R74 to R86: an unadvised bag is HELD, so the allocation gives the lowest reserved compartment. -/
theorem test_evaluation :
    (runAll [.credentialPresented 2 77, .drop 2, .throatEntryReport 2, .presenceReport, .settleTimerExpiry 900,
      .tagReadReport (.tag 9 false)] bench).station.state = .placing 1 (.throat 2) 36 8000 := by decide

/-- R121, R122, R146: a cosigned bank lets the platform open a compartment. -/
theorem test_openUnderDualControl :
    ((runAll [.safeState 0 1 2, .collect 0 1, .relinquish 0 2 1, .claim 1 1 1, .collect 1 2, .cosign 2 1 1,
      .openDoor 1 3 0] bench).cabinet.compartments.get 0).door =
      .unlocked (.command 1 .openDoor .deliver) 20000 := by decide

/-- R9: the counter passes 65,535 and skips a number held. -/
theorem test_numberWraps :
    issuedNumber { Register.empty with records := [bag 1 .stored, bag 65535 .stored], nextNumber := 65535 } = 2 := by
  decide

/-! ## Witnesses: the machine and its links -/

/-- No purge walk; a walk whose next record stays, one whose next record goes, and one that has passed them all. -/
theorem test_meets_EmptyQueueIsOneTick :
    let s (v : Nat) := walking ⟨10, v⟩ (holding [bag 1 .stored, bag 65535 .counted] bench)
    State.reset.pending = [] ∧ State.reset.register.walk = none ∧
    (∀ v, (s v).pending = [] ∧ (s v).register.walk = some ⟨10, v⟩ ∧ InNumberOrder (s v).register) ∧
    (∀ r ∈ (s 65535).register.records, r.number ≤ 65535) ∧
    bag 1 .stored ∈ (s 0).register.records ∧ 0 < (bag 1 .stored).number ∧
    (∀ x ∈ (s 0).register.records, 0 < x.number → (bag 1 .stored).number ≤ x.number) ∧
    (bag 1 .stored).state = .stored ∧
    bag 65535 .counted ∈ (s 1).register.records ∧ 1 < (bag 65535 .counted).number ∧
    (∀ x ∈ (s 1).register.records, 1 < x.number → (bag 65535 .counted).number ≤ x.number) ∧
    (bag 65535 .counted).state = .counted ∧ (bag 65535 .counted).arrivalDate ≤ 10 := by
  refine ⟨rfl, rfl, fun v => ⟨rfl, rfl, ?_⟩, by decide⟩
  show List.Pairwise (· < ·) [1, 65535]
  decide

theorem test_ready (l : LinkId) : ReadyLink bench l := by
  refine ⟨⟨?_, ?_⟩, ?_⟩ <;> revert l <;> decide

set_option maxRecDepth 20000 in
theorem test_meets_FramesAreCheckedAndRun :
    ((bench.links.get 0).present = true ∧ (bench.links.get 0).receiver = .hunting) ∧
    ([] : List Byte).length % 2 = 0 ∧ decodeBody .collect 0 (255#8).toNat [] = .command (.collect 0 255) ∧
    (List.replicate 480 0#8).length ≤ 480 ∧
    decodeBody .loadAdvice 0 (0#8).toNat [0, 0] = .command (.loadAdvice 0 0 []) ∧
    240 < (241#8).toNat ∧ (240#8).toNat ≤ 240 ∧
    (List.replicate 3 0#8).length = 3 + 2 * (0#8).toNat ∧
    ([0#8, 0#8] : List Byte) ≠ bytesOf 2 (crc16 (List.replicate 3 0#8)).toNat := by decide

/-- A link in each phase, and one that hears nothing. -/
theorem test_meets_LinksRefuseByPhaseAndRole :
    commandOf (.claim 0 3 1) = some (0, 3, .claim) ∧ commandOf (.collect 0 3) = some (0, 3, .collect) ∧
    TakesFrames (linkIn 0 .executing [] (some ⟨.purge, 0, .deliver⟩) bench) 0 ∧
    ((linkIn 0 .executing [] (some ⟨.purge, 0, .deliver⟩) bench).links.get 0).phase = .executing ∧
    TakesFrames (linkIn 0 .result [.foreignTag 1] none bench) 0 ∧
    ((linkIn 0 .result [.foreignTag 1] none bench).links.get 0).phase = .result ∧
    ReadyLink bench 0 ∧ Command.claim.allowed 0 = false ∧
    ((modifyLink 0 (fun k => { k with present := false }) bench).links.get 0).present = false ∧
    ((modifyLink 0 (fun k => { k with receiver := .lineLow }) bench).links.get 0).receiver = .lineLow := by
  unfold ReadyLink TakesFrames; decide

theorem test_meets_ResultsAreCollectedOrDropped :
    TakesFrames (linkIn 0 .result (List.replicate 9 (.foreignTag 1)) none bench) 0 ∧
    ((linkIn 0 .result (List.replicate 9 (.foreignTag 1)) none bench).links.get 0).phase = .result := by
  unfold TakesFrames; decide

theorem test_meets_LinkSettingsAreWritten :
    ReadyLink bench 3 ∧ 2 ^ 20 - 1 < 2 ^ 20 ∧ 1 ≤ [22].length ∧ [22].Nodup ∧ (∀ x ∈ [22], 1 ≤ x ∧ x ≤ 22) ∧
    (List.range' 1 12).length ≤ 12 ∧ (List.range' 1 12).Nodup ∧ 1 ≤ 3600 ∧ 1 ≤ 255 :=
  ⟨test_ready 3, by decide⟩

theorem test_meets_ForcedErrorsFollowTheCount :
    255 ≤ 255 ∧ ReadyLink bench 1 ∧
    ((modifyLink 1 (fun k => { k with queue := [.done 1 .ok 0 true] }) bench).links.get 1).queue =
      .done 1 .ok 0 true :: [] ∧
    (bench.links.get 1).queue = [] :=
  ⟨le_rfl, test_ready 1, by decide⟩

theorem test_meets_BreakDropsTheLinksWork : TakesFrames bench 2 := (test_ready 2).1

theorem test_meets_LinkEventsMoveTheLink :
    let low := modifyLink 0 (fun k => { k with receiver := .lineLow }) bench
    let gone := modifyLink 0 (fun k => { k with present := false }) bench
    let inside := modifyLink 0 (fun k => { k with receiver := .inFrame [1] }) bench
    let timed := modifyLink 0 (fun k => { k with program := some ⟨.seconds 3600 0, [1, 22], 65535⟩ }) bench
    (low.links.get 0).receiver = .lineLow ∧ (bench.links.get 0).receiver ≠ .lineLow ∧
    (gone.links.get 0).present = false ∧ (bench.links.get 0).present = true ∧
    (inside.links.get 0).present = true ∧ (inside.links.get 0).receiver = .inFrame [1] ∧
    (bench.links.get 0).receiver = .hunting ∧
    (timed.links.get 0).program = some ⟨.seconds 3600 0, [1, 22], 65535⟩ ∧
    (timed.links.get 0).present = true ∧ (bench.links.get 0).program = none := by decide

theorem test_meets_RaiseMarksEnabledLinks : 1 ≤ 1 := by decide

/-! ## Witnesses: reading -/

theorem test_meets_TableReadsReturnCopies :
    let s := advised [note] (holding [bag 65535 .stored] bench)
    ReadyLink s 3 ∧ s.store.valid = true ∧ RecordAt s 65535 (bag 65535 .stored) ∧
    (∀ r ∈ s.register.records, r.number ≠ 1) ∧ (∀ x ∈ (some 65535 : Option Nat), x ≤ 65535) ∧
    (1 ≤ 500 ∧ 500 ≤ 999999999 ∧ (s.advices.entries.find? fun x => x.tag == 500) = some note) ∧
    (1 ≤ 3 ∧ 3 ≤ 3) ∧ s.roster.get 0 = some payer ∧ s.roster.get 127 = none := by
  unfold ReadyLink TakesFrames RecordAt; decide

theorem test_meets_BlockReadsReturnCopies : ReadyLink bench 0 := test_ready 0

/-- The four links READY with the store INVALID, and the ends of the operands' ranges. -/
theorem test_meets_InvalidStoreRefusesCommands :
    let s := State.reset
    s.store.valid = false ∧ (∀ l, ReadyLink s l ∧ (s.links.get l).long = none) ∧ 65535 ≠ 0 ∧
    (∀ x ∈ (some 65535 : Option Nat), x ≤ 65535) ∧ (1 ≤ 999999999 ∧ 999999999 ≤ 999999999) ∧
    (parameterLink 11 = 1 ∧ parameterRange 11 = some (0, 100000)) ∧
    (parameterLink 15 = 0 ∧ parameterRange 15 = some (0, 86399)) ∧
    1 ≤ (List.replicate 8 (⟨0, 0, 0, 0, 0, none, 0, 0⟩ : AdviceArgs)).length ∧
    (List.replicate 8 (⟨0, 0, 0, 0, 0, none, 0, 0⟩ : AdviceArgs)).length ≤ 8 ∧
    12 ≤ (boxesOf s .standard).length ∧ 4 ≤ (boxesOf s .coin).length ∧
    ([1, 2, 3, 65535].Nodup ∧ ∀ n ∈ [1, 2, 3, 65535], n ≠ 0) := by
  unfold ReadyLink TakesFrames; decide

/-! ## Witnesses: safety -/

/-- The safe OPEN, bank 0 HELD by link 1 with link 2's cosign, and door 0 UNLOCKED for that link. -/
theorem test_meets_StepKeepsDualControl :
    let s := boxIn 0 (.unlocked (.command 1 .openDoor .deliver) 0) [] (claimedBy 0 (.held 1 (some 2)) bench)
    DualControl s ∧ ∃ t, step s = .next t := by
  refine ⟨⟨fun _ _ => rfl, ?_, ?_, ?_, ?_⟩, _, rfl⟩
  · intro r l ms h
    have key : ∀ r : Fin 9, (match ((claimedBy 0 (.held 1 (some 2)) bench).claims.resources.get r) with
      | .cosignWait _ _ => false
      | _ => true) = true := by decide
    have hr := key r
    rw [show (claimedBy 0 (.held 1 (some 2)) bench).claims.resources.get r = .cosignWait l ms from h] at hr
    cases hr
  · intro r l k h
    have key : ∀ r : Fin 9, (match ((claimedBy 0 (.held 1 (some 2)) bench).claims.resources.get r) with
      | .held _ k => decide (k.isSome = true ↔ r.val < 4)
      | _ => true) = true := by decide
    have hr := key r
    rw [show (claimedBy 0 (.held 1 (some 2)) bench).claims.resources.get r = .held l k from h] at hr
    exact of_decide_eq_true hr
  · intro r l k h
    have key : ∀ r : Fin 9, (match ((claimedBy 0 (.held 1 (some 2)) bench).claims.resources.get r) with
      | .held l (some k) => decide (k ≠ l)
      | _ => true) = true := by decide
    have hr := key r
    rw [show (claimedBy 0 (.held 1 (some 2)) bench).claims.resources.get r = .held l (some k) from h] at hr
    exact of_decide_eq_true hr
  · intro c op ms h
    have key : ∀ c : CompartmentId,
        ((boxIn 0 (.unlocked (.command 1 .openDoor .deliver) 0) []
          (claimedBy 0 (.held 1 (some 2)) bench)).cabinet.compartments.get c).door.isUnlocked = decide (c = 0) := by
      decide
    have hc := key c
    rw [h] at hc
    have : c = 0 := of_decide_eq_true hc.symm
    subst this
    have hd : Door.unlocked (.command 1 .openDoor .deliver) 0 = Door.unlocked op ms := by rw [← h]; rfl
    cases hd
    exact ⟨rfl, 1, .openDoor, .deliver, some 2, rfl, by decide, by decide⟩

theorem test_meets_StepKeepsLinkPhases : LinkPhases bench ∧ ∃ t, step bench = .next t := by
  refine ⟨fun l => ?_, _, rfl⟩
  have key : ∀ l : LinkId, (bench.links.get l).phase = .ready ∧ (bench.links.get l).held = [] ∧
    (bench.links.get l).long = none := by decide
  obtain ⟨h1, h2, h3⟩ := key l
  simp [Link.PhaseHolds, h1, h2, h3]

theorem test_meets_StepKeepsTheRegister :
    let s : State := { holding [bag 1 .stored, bag 65535 .stored] bench with pending := [.drop 0] }
    CapacityKept s ∧ NumbersInRange s.register ∧ (s.register.records.map Record.number).Nodup ∧
      InNumberOrder s.register ∧ ∃ t, step s = .next t := by
  refine ⟨?_, ?_, by decide, ?_, _, rfl⟩
  · unfold CapacityKept; decide
  · unfold NumbersInRange; decide
  · unfold InNumberOrder; decide

theorem test_meets_StepKeepsManifestAndClock :
    (∃ t, step (manifestOf (List.range' 1 24) bench) = .next t) ∧ ManifestKept (manifestOf (List.range' 1 24) bench) ∧
      ClockInRange bench := by
  refine ⟨⟨_, rfl⟩, ⟨by decide, fun m h => ?_⟩, by unfold ClockInRange; decide⟩
  cases h
  decide

theorem test_meets_IssuedNumberIsFree :
    NumbersInRange { Register.empty with records := [bag 65535 .stored], nextNumber := 65535 } := by
  unfold NumbersInRange; decide

/-! ## Witnesses: starts, the store, the parameters and the clock -/

theorem test_meets_InvalidStartGivesResetValues : State.reset.store.valid = false ∧ bench.store.valid = true := by
  decide

/-- A record found in ROUTING, with the clock VALID; and no record in flight, every queue empty, the clock INVALID. -/
theorem test_meets_ValidStartKeepsTheStore :
    let found (r : Record) : Bool := r.state == .checking || r.state == .routing
    let s := holding [bag 1 .routing] bench
    let u := { holding [bag 1 .stored] bench with clock := .cleared .storeLost }
    s.store.valid = true ∧ s.register.records.any found = true ∧ s.clock.validity = .valid ∧
    u.store.valid = true ∧ u.register.records.any found = false ∧ u.clock.validity ≠ .valid ∧
    u.station.service = [] ∧ ∀ c : ChuteId, (u.chutes.get c).queue = [] := by decide

/-- The cutoff is 57,600: from second 1,000 it is 56,600 seconds away. -/
theorem test_meets_StartTestsTheMissedCutoff :
    bench.store.valid = true ∧ bench.clock.validity = .valid ∧ ClockInRange bench ∧
    (∃ k, 1 ≤ k ∧ k ≤ 56600 ∧ (bench.clock.seconds + k) % 86400 = bench.store.params.cutoff) ∧
    ∀ k, 1 ≤ k → k ≤ 56599 → (bench.clock.seconds + k) % 86400 ≠ bench.store.params.cutoff := by
  have hs : bench.clock.seconds = 1000 := rfl
  have hc : bench.store.params.cutoff = 57600 := rfl
  refine ⟨rfl, rfl, by unfold ClockInRange; decide, ⟨56600, by omega, by omega, by rw [hs, hc]⟩, ?_⟩
  intro k _ _
  rw [hs, hc]
  omega

/-- The store VALID with a bag, VALID without one and INVALID; and its completion with each long command of link 0. -/
theorem test_meets_InitialiseStoreClearsTheStore :
    let s := holding [bag 1 .counted] bench
    let u : State := { bench with store := { bench.store with valid := false, clearing := some 0 } }
    ReadyLink s 0 ∧ (s.links.get 0).long = none ∧ s.store.valid = true ∧
    (∀ r ∈ s.register.records, r.state = .counted ∨ r.state = .dispatched ∨ r.state = .void) ∧
    (∀ c : CompartmentId, (s.cabinet.compartments.get c).occupants = []) ∧
    bag 2 .stored ∈ (holding [bag 2 .stored] s).register.records ∧
    ¬ ((bag 2 .stored).state = .counted ∨ (bag 2 .stored).state = .dispatched ∨ (bag 2 .stored).state = .void) ∧
    u.store.valid = false ∧ bench.store.clearing = none ∧ u.store.clearing = some 0 ∧ (u.links.get 0).long = none ∧
    ((linkIn 0 .executing [] (some ⟨.initialiseStore, 9, .deliver⟩) u).links.get 0).long =
      some ⟨.initialiseStore, 9, .deliver⟩ ∧
    ((linkIn 0 .ready [] (some ⟨.initialiseStore, 9, .discard⟩) u).links.get 0).long =
      some ⟨.initialiseStore, 9, .discard⟩ := by
  unfold ReadyLink TakesFrames; decide

/-- A parameter of each role at an end of its range and one above it, the threshold, the cutoff, a parameter of the
other role. -/
theorem test_meets_SetParameterWritesTheValue :
    bench.store.valid = true ∧ ReadyLink bench 1 ∧ parameterLink 11 = 1 ∧
    parameterRange 11 = some (0, 100000) ∧ 100000 < 100001 ∧
    parameterLink 10 = 1 ∧ parameterRange 10 = some (0, 40) ∧
    ReadyLink bench 0 ∧ parameterLink 15 = 0 ∧
    parameterRange 15 = some (0, 86399) ∧ bench.clock.validity = .valid ∧
    ({ bench with clock := .cleared .storeLost } : State).clock.validity ≠ .valid ∧
    (1 ≤ 15 ∧ parameterLink 15 ≠ 1) := by
  exact ⟨rfl, test_ready 1, rfl, rfl, by decide, rfl, rfl, test_ready 0, rfl, rfl, rfl, by decide⟩

/-- An advance to second 86,399 and to 0, and one to the cutoff. -/
theorem test_meets_AdvanceMovesTheClock :
    bench.store.params.cutoff ≠ 0 ∧ bench.store.params.cutoff ≠ 1001 ∧ bench.clock.validity = .valid ∧
    ({ bench with clock := ⟨57599, 65535, .valid, none⟩ } : State).clock.seconds + 1 = bench.store.params.cutoff := by
  decide

theorem test_meets_SetClockWritesTheReading :
    ReadyLink bench 0 ∧ bench.store.valid = true ∧ bench.clock.date = 10 ∧ 65535 ≠ bench.clock.date := by
  unfold ReadyLink TakesFrames; decide

/-! ## Witnesses: chutes -/

theorem test_meets_CredentialOpensSessionOrIsRefused :
    (bench.chutes.get 3).state = .idle ∧ (bench.chutes.get 3).masked = false ∧ bench.intakeClosed = false ∧
    bench.clock.validity = .valid ∧ bench.store.valid = true ∧ bench.roster.get 0 = some payer ∧
    (∀ i x, bench.roster.get i = some x → x.credential = 77 → i = 0) ∧ payer.state = .active ∧
    payer.permissions.getLsbD 3 = true ∧ payer.remaining ≠ 0 ∧
    ((chuteIn 3 .fault bench).chutes.get 3).state ≠ .idle ∧
    ({ bench with intakeClosed := true } : State).intakeClosed = true := by
  refine ⟨by decide, by decide, by decide, rfl, rfl, by decide, ?_, by decide⟩
  intro i x h _
  have key : ∀ i, (bench.roster.get i).isSome = decide (i = 0) := by decide
  have := key i
  rw [h] at this
  exact of_decide_eq_true this.symm

/-- A depositor with bags left at a chute whose throat holds two, and the three reasons why not. -/
theorem test_meets_SessionButtonsAndTimers :
    let s := chuteIn 0 (.session 0 0) bench
    (s.chutes.get 0).state = .session 0 0 ∧ s.roster.get 0 = some payer ∧ payer.remaining ≠ 0 ∧
    ({ payer with remaining := 0 } : Depositor).remaining = 0 ∧
    3 ≤ ((modifyChute 0 (fun k => { k with queue := [1, 2, 3] }) s).chutes.get 0).queue.length ∧
    ((modifyChute 0 (fun k => { k with queue := [1, 2] }) s).chutes.get 0).queue.length < 3 ∧
    320 ≤ (holding (List.replicate 320 (bag 1 .stored)) s).register.records.length + s.register.reservations ∧
    (holding (List.replicate 319 (bag 1 .stored)) s).register.records.length + s.register.reservations < 320 ∧
    ((chuteIn 0 (.drum 0 0 false) bench).chutes.get 0).state = .drum 0 0 false := by
  have h : (chuteIn 0 (.session 0 0) bench).register.reservations = 0 := rfl
  refine ⟨by decide, by decide, by decide, by decide, by decide, by decide, ?_, ?_, by decide⟩
  · simp only [holding, List.length_replicate, h]; decide
  · simp only [holding, List.length_replicate, h]; decide

theorem test_meets_ThroatEntryCreatesTheRecord :
    ((chuteIn 0 (.drum 0 0 false) bench).chutes.get 0).state = .drum 0 0 false ∧
    (chuteIn 0 (.drum 0 0 false) bench).roster.get 0 = some payer ∧ 2 ≤ payer.remaining ∧
    ((chuteIn 0 (.drum 0 0 true) bench).chutes.get 0).state = .drum 0 0 true := by decide

theorem test_meets_JamsAndStrayEntriesFaultTheChute :
    ((chuteIn 0 (.drum 0 0 true) bench).chutes.get 0).state = .drum 0 0 true ∧
    ∀ d ms p, (bench.chutes.get 0).state ≠ .drum d ms p :=
  ⟨by decide, fun d ms p h => by
    have : (bench.chutes.get 0).state = .idle := by decide
    rw [this] at h; cases h⟩

theorem test_meets_DrumWindowReturnsTheReservation :
    ((chuteIn 0 (.drum 127 0 true) bench).chutes.get 0).state = .drum 127 0 true := by decide

theorem test_meets_ChuteCommandsMaskAndClear :
    let s := chuteIn 0 .fault (claimedBy 5 (.held 1 none) bench)
    ReadyLink s 1 ∧ s.store.valid = true ∧ s.claims.resources.get (hatchResource 0) = .held 1 none ∧
    (s.chutes.get 0).state = .fault ∧ (s.chutes.get 0).queue = [] ∧
    ((modifyChute 0 (fun k => { k with queue := [1, 2, 3] }) s).chutes.get 0).queue ≠ [] ∧
    (bench.chutes.get 0).masked = false ∧ bench.intakeClosed = false ∧
    ((chuteIn 0 (.session 0 1) bench).chutes.get 0).state = .session 0 1 ∧
    ((chuteIn 0 (.drum 0 1 false) bench).chutes.get 0).state = .drum 0 1 false := by
  unfold ReadyLink TakesFrames; decide

/-! ## Witnesses: the station -/

/-- The service queue with a bag; the throat of chute 3, the last in either mode after last-served throat 3; no
requester, and a busy station. -/
theorem test_meets_ArbiterGrantsTheHead :
    let ready (s : State) (c : ChuteId) : Prop := (s.chutes.get c).state ≠ .fault ∧ (s.chutes.get c).queue ≠ []
    let s : State := { bench with station := { bench.station with service := [1] } }
    let u := modifyChute 3 (fun k => { k with queue := [1] }) bench
    let v : State := { u with store := { u.store with params := { u.store.params with priority := .fixed } } }
    s.station.state = .idle ∧ s.station.service = 1 :: [] ∧
    u.station.state = .idle ∧ u.station.service = [] ∧ u.store.params.priority = .rotating ∧
    (∀ j : Fin 4, j < 3 → ¬ ready u (u.station.lastServed + 1 + j)) ∧
    (u.chutes.get (u.station.lastServed + 1 + 3)).state ≠ .fault ∧
    (u.chutes.get (u.station.lastServed + 1 + 3)).queue = 1 :: [] ∧
    v.station.state = .idle ∧ v.station.service = [] ∧ v.store.params.priority = .fixed ∧
    (∀ j : ChuteId, j < 3 → ¬ ready v j) ∧ (v.chutes.get 3).state ≠ .fault ∧ (v.chutes.get 3).queue = 1 :: [] ∧
    bench.station.state = .idle ∧ bench.station.service = [] ∧ (∀ c : ChuteId, ¬ ready bench c) ∧
    (setStation .fault bench).station.state ≠ .idle := by decide

theorem test_meets_PresenceStartsMeasuring :
    (setStation (.loading 1 .service 0) bench).station.state = .loading 1 .service 0 ∧
    ∀ n src ms, bench.station.state ≠ .loading n src ms :=
  ⟨rfl, fun n src ms h => by cases h⟩

theorem test_meets_StationTimeoutsStrandTheBag :
    (setStation (.loading 1 .service 0) bench).station.state = .loading 1 .service 0 ∧
    (setStation (.loading 1 (.throat 3) 0) bench).station.state = .loading 1 (.throat 3) 0 ∧
    (setStation (.placing 1 .service 47 0) bench).station.state = .placing 1 .service 47 0 ∧
    (∃ d w p, ((chuteIn 3 (.drum 0 1 true) bench).chutes.get 3).state = .drum d w p) ∧
    ((chuteIn 3 .fault bench).chutes.get 3).state = .fault ∧ (bench.chutes.get 3).state ≠ .fault ∧
    ∀ d w p, (bench.chutes.get 3).state ≠ .drum d w p := by
  refine ⟨rfl, rfl, rfl, ⟨0, 1, true, by decide⟩, by decide, by decide, fun d w p h => ?_⟩
  have : (bench.chutes.get 3).state = .idle := by decide
  rw [this] at h; cases h

/-- The first of the two, with an attempt left and at the last one; the settle latch second; and the reads second. -/
theorem test_meets_MeasurementsLeadToEvaluation :
    let m (made : Nat) (r : Reads) : Measuring := ⟨.running 0, made, 3, r⟩
    let latched (made : Nat) : Measuring := ⟨.latched 30000, made, 3, .attempt 0⟩
    (setStation (.measuring 1 .service (m 1 (.attempt 0))) bench).station.state =
      .measuring 1 .service (m 1 (.attempt 0)) ∧
    (m 1 (.attempt 0)).settle = .running 0 ∧ (m 1 (.attempt 0)).reads = .attempt 0 ∧
    1 + 1 < (m 1 (.attempt 0)).allowed ∧
    (m 2 (.attempt 0)).allowed ≤ 2 + 1 ∧ (m 3 (.done .failed)).reads = .done .failed ∧
    (setStation (.measuring 1 .service (latched 2)) bench).station.state = .measuring 1 .service (latched 2) ∧
    (latched 2).settle = .latched 30000 ∧ (latched 2).reads = .attempt 0 ∧ (latched 2).allowed ≤ 2 + 1 ∧
    1 ≤ 999999999 ∧ 999999999 < 1000000000 ∧
    RecordAt (holding [newRecord 1 0 1 bench.clock .checking] bench) 1 (newRecord 1 0 1 bench.clock .checking) ∧
    (newRecord 1 0 1 bench.clock .checking).tag = none := by
  unfold RecordAt; decide

theorem test_meets_StationHolderReEntersAndClears :
    let s := holding [bag 1 .stranded] (claimedBy 4 (.held 1 none) bench)
    ReadyLink s 1 ∧ s.store.valid = true ∧ s.claims.resources.get 4 = .held 1 none ∧ RecordAt s 1 (bag 1 .stranded) ∧
    (bag 1 .stranded).state = .stranded ∧ s.station.service.length < 4 ∧
    (setStation .fault s).station.state = .fault ∧
    (setStation (.blocked 1 .service) s).station.state = .blocked 1 .service := by
  unfold ReadyLink TakesFrames RecordAt; decide

/-! ## Witnesses: the cabinet -/

theorem test_meets_ArrivalsAreStoredOrHeld :
    let s := setStation (.placing 1 .service 47 0) (holding [bag 1 .routing] bench)
    s.station.state = .placing 1 .service 47 0 ∧ RecordAt s 1 (bag 1 .routing) ∧ (bag 1 .routing).reasons = 0 ∧
    ({ bag 1 .routing with reasons := 1 } : Record).reasons ≠ 0 ∧ (46 : CompartmentId) ≠ 47 := by
  unfold RecordAt; decide

theorem test_meets_ForeignEntryIsNoted : ∀ n src target ms, bench.station.state ≠ .placing n src target ms :=
  fun _ _ _ _ h => by cases h

theorem test_meets_LayoutAndRuleCommandsWriteTheirCell :
    ReadyLink bench 1 ∧ bench.store.valid = true ∧ (bench.cabinet.compartments.get 0).cls = .standard ∧
    ((bench.cabinet.compartments.get 47).occupants = [] ∧ pendingAt bench 47 = 0 ∧
      (bench.cabinet.compartments.get 47).door.operation = none ∧
      reserveOf bench .coin < (boxesOf bench .coin).length) ∧
    12 ≤ (boxesOf bench .standard).length ∧ 4 ≤ (boxesOf bench .coin).length ∧
    (∀ n src, bench.station.state ≠ .blocked n src) :=
  ⟨test_ready 1, by decide, by decide, by decide, by decide, by decide, fun _ _ h => by cases h⟩

/-! ## Witnesses: claims -/

theorem test_meets_SafeStateLocksTheBanks :
    ReadyLink bench 0 ∧ bench.claims.safe = .locked ∧ (claimedBy 0 (.held 1 (some 2)) bench).claims.safe = .opened :=
  ⟨test_ready 0, rfl, rfl⟩

theorem test_meets_ClaimsMoveTheHolder :
    let s := claimedBy 0 (.cosignWait 1 0) (claimedBy 8 (.held 1 none) (claimedBy 3 .free bench))
    ReadyLink s 0 ∧ ReadyLink s 1 ∧ ReadyLink s 2 ∧ s.claims.resources.get 4 = .retained ∧
    s.claims.resources.get 1 = .retained ∧ s.claims.safe = .opened ∧ s.claims.resources.get 3 = .free ∧
    s.claims.resources.get 0 = .cosignWait 1 0 ∧ s.claims.resources.get 8 = .held 1 none ∧
    s.claims.resources.get (bankResource 0) = .cosignWait 1 0 ∧
    ∀ l ms, s.claims.resources.get (bankResource 3) ≠ .cosignWait l ms := by
  refine ⟨?_, ?_, ?_, by decide, by decide, rfl, by decide, by decide, by decide, by decide, fun l ms h => ?_⟩
  · unfold ReadyLink TakesFrames; decide
  · unfold ReadyLink TakesFrames; decide
  · unfold ReadyLink TakesFrames; decide
  · cases h

/-- Bank 3 HELD by link 3 with door 47 UNLOCKED for it, and the safe OPEN: the hold is lost to link 3 there alone. -/
theorem test_meets_LostBankRelocksItsDoors :
    let s := boxIn 47 (.unlocked (.command 3 .openDoor .deliver) 1) [] (claimedBy 3 (.held 3 (some 0)) bench)
    let held (c : CompartmentId) (l : LinkId) : Bool := holds s l (bankResource (bankOf c))
    s.claims.resources.get (bankResource 3) = .held 3 (some 0) ∧ (3 : LinkId) ≠ 0 ∧ ReadyLink s 0 ∧ ReadyLink s 3 ∧
    s.claims.safe = .opened ∧ abandonedAt held s 47 = some 3 ∧ abandonedAt held s 46 = none := by
  unfold ReadyLink TakesFrames; decide

/-! ## Witnesses: windows and doors -/

theorem test_meets_WindowsAreReplacedAndMatched :
    ReadyLink bench 0 ∧ bench.store.valid = true ∧ 63 < 64 ∧ 7 < 8 ∧ 0 ≤ 47 ∧ 47 < 48 ∧ 86399 ≤ 86399 :=
  ⟨test_ready 0, by decide⟩

theorem test_meets_DoorSensorMovesTheDoor :
    ((boxIn 0 (.unlocked (.command 1 .openDoor .deliver) 1) [] bench).cabinet.compartments.get 0).door =
      .unlocked (.command 1 .openDoor .deliver) 1 ∧
    (bench.cabinet.compartments.get 47).door = .locked ∧
    ((boxIn 0 (.scanning .unattended 0) [] bench).cabinet.compartments.get 0).door = .scanning .unattended 0 ∧
    ((boxIn 0 (.opened true none none) [] bench).cabinet.compartments.get 0).door = .opened true none none := by
  decide

theorem test_meets_DoorLeftOpenIsRaisedOnce :
    ((boxIn 47 (.opened true none (some 0)) [] bench).cabinet.compartments.get 47).door = .opened true none (some 0) ∧
    ((boxIn 47 (.opened true none none) [] bench).cabinet.compartments.get 47).door = .opened true none none ∧
    ∀ f o m, (bench.cabinet.compartments.get 47).door ≠ .opened f o m :=
  ⟨by decide, by decide, fun f o m h => by
    have : (bench.cabinet.compartments.get 47).door = .locked := by decide
    rw [this] at h; cases h⟩

theorem test_meets_UnlockWindowEndsNotOpened :
    let s := linkIn 1 .executing [] (some ⟨.openDoor, 9, .deliver⟩)
      (boxIn 0 (.unlocked (.command 1 .openDoor .deliver) 0) [] bench)
    (s.cabinet.compartments.get 0).door = .unlocked (.command 1 .openDoor .deliver) 0 ∧
    (s.links.get 1).long = some ⟨.openDoor, 9, .deliver⟩ ∧
    ((linkIn 1 .ready [] (some ⟨.openDoor, 9, .discard⟩) s).links.get 1).long = some ⟨.openDoor, 9, .discard⟩ ∧
    ∀ n src, s.station.state ≠ .blocked n src :=
  ⟨by decide, by decide, by decide, fun _ _ h => by cases h⟩

/-- The platform opens, takes inventory and hands out a HELD bag; the carrier takes a THROUGH bag of its manifest. -/
theorem test_meets_DoorCommandsAreAccepted :
    let r : Record := { bag 1 .stored with compartment := some 0, handling := some .through }
    let h : Record := { bag 1 .held with compartment := some 0 }
    let s := manifestOf [1] (holding [r] (boxIn 0 .locked [1] (claimedBy 0 (.held 3 (some 2)) bench)))
    let u := holding [h] (boxIn 0 .locked [1] (claimedBy 0 (.held 1 (some 2)) bench))
    (ReadyLink s 3 ∧ (s.links.get 3).long = none ∧ s.store.valid = true ∧
      (s.cabinet.compartments.get 0).door = .locked ∧ pendingAt s 0 = 0 ∧ s.claims.safe = .opened ∧
      s.claims.resources.get (bankResource (bankOf 0)) = .held 3 (some 2) ∧ isProtectedFrom s 3 .handOut 0 = false ∧
      [1].Nodup ∧ RecordAt s 1 r ∧ r.compartment = some 0 ∧ r.state = .stored ∧ r.handling = some .through ∧
      s.manifest.current = some ⟨4, none, [1]⟩) ∧
    ReadyLink u 1 ∧ (u.links.get 1).long = none ∧ u.store.valid = true ∧
    (u.cabinet.compartments.get 0).door = .locked ∧ pendingAt u 0 = 0 ∧ u.claims.safe = .opened ∧
    u.claims.resources.get (bankResource (bankOf 0)) = .held 1 (some 2) ∧ RecordAt u 1 h ∧ h.state = .held ∧
    isProtectedFrom u 1 .openDoor 0 = false ∧ isProtectedFrom u 1 .inventory 0 = false ∧
    isProtectedFrom u 1 .handOut 0 = false := by
  unfold ReadyLink TakesFrames RecordAt; decide

/-- A shielded compartment; the safe LOCKED; the bank FREE; the bank HELD and a scan in flight. -/
theorem test_meets_OpenIsRefusedInOrder :
    let shield : ProtectionWindow := { enabled := true, base := 0, ignore := 63, links := 7, operations := 7 }
    let table := bench.windows.protection.set 3 shield
    let s : State := { bench with windows := { bench.windows with protection := table } }
    let u := claimedBy 0 (.held 1 (some 0)) bench
    ReadyLink bench 1 ∧ (bench.links.get 1).long = none ∧ bench.store.valid = true ∧
    isProtectedFrom s 1 .openDoor 47 = true ∧ isProtectedFrom bench 1 .openDoor 47 = false ∧
    bench.claims.safe = .locked ∧ u.claims.safe = .opened ∧
    u.claims.resources.get (bankResource (bankOf 47)) = .retained ∧
    u.claims.resources.get (bankResource (bankOf 11)) = .held 1 (some 0) ∧
    ((boxIn 11 (.scanning .unattended 0) [] u).cabinet.compartments.get 11).door.operation ≠ none := by
  unfold ReadyLink TakesFrames; decide

/-- Two occupants, one of them read and the other lost; and a tag that only a COUNTED record carries. -/
theorem test_meets_ScanFindsAbsentBagsMissing :
    let s := holding [bag 1 .stored, { bag 2 .held with tag := some 999999999 }, { bag 3 .counted with tag := some 1 }]
      (boxIn 0 (.scanning .unattended 0) [1, 2] bench)
    (s.register.records.map Record.number).Nodup ∧ (s.cabinet.compartments.get 0).door = .scanning .unattended 0 ∧
    (∀ dest ns l d, DoorOp.unattended ≠ .command l (.handOut dest ns) d) ∧
    (∀ g ∈ [999999999, 1], 1 ≤ g ∧ g ≤ 999999999) ∧ [999999999, 1].Nodup ∧
    (∀ r ∈ s.register.records, ∀ g ∈ [999999999, 1], r.tag = some g →
      r.number ∈ (s.cabinet.compartments.get 0).occupants ∨ r.state = .counted ∨ r.state = .dispatched ∨
        r.state = .void) ∧
    ∀ src, s.station.state ≠ .blocked 1 src :=
  ⟨by decide, by decide, nofun, by decide, by decide, by decide, nofun⟩

theorem test_meets_ScanRecoversAKnownBag :
    let s := holding [bag 1 .missing] (boxIn 0 (.scanning .unattended 0) [] bench)
    (s.cabinet.compartments.get 0).door = .scanning .unattended 0 ∧ (s.cabinet.compartments.get 0).occupants = [] ∧
    RecordAt s 1 (bag 1 .missing) ∧ (bag 1 .missing).tag = some 500 ∧ (bag 1 .missing).reasons.getLsbD 3 = false ∧
    (∀ x ∈ s.register.records, x.tag = some 500 → x.number = 1) ∧ (bag 1 .missing).state = .missing ∧
    (bag 1 .missing).compartment ≠ some 0 ∧ ∀ src, s.station.state ≠ .blocked 1 src := by
  refine ⟨by decide, by decide, ?_, by decide, by decide, by decide, by decide, by decide, fun _ h => by cases h⟩
  unfold RecordAt; decide

/-- A hand-out to a teller, and one to the carrier with the record in the manifest. -/
theorem test_meets_HandOutTakesTheNamedBag :
    let s (d : Destination) := manifestOf [1] (linkIn 3 .executing [] (some ⟨.handOut, 7, .deliver⟩)
      (holding [bag 1 .stored] (boxIn 0 (.scanning (.command 3 (.handOut d [1]) .deliver) 0) [1] bench)))
    ∀ d ∈ [Destination.teller, .carrier],
      ((s d).cabinet.compartments.get 0).door = .scanning (.command 3 (.handOut d [1]) .deliver) 0 ∧
      ((s d).cabinet.compartments.get 0).occupants = [1] ∧ RecordAt (s d) 1 (bag 1 .stored) ∧
      (bag 1 .stored).tag = some 500 ∧ (s d).station.state = .idle ∧
      (s d).manifest.current = some ⟨4, none, [1]⟩ ∧ ((s d).links.get 3).long = some ⟨.handOut, 7, .deliver⟩ := by
  unfold RecordAt; decide

/-! ## Witnesses: counts and manifests -/

/-- A record with an advice and one without, a COUNTED one, a STORED one and a number no record has. -/
theorem test_meets_CountResultClosesTheRecord :
    let r : Record := { bag 1 .outTeller with advice := some 0 }
    let s := advised [{ note with matched := some 1 }] (holding [r, bag 2 .counted, bag 3 .stored] bench)
    ReadyLink s 2 ∧ s.store.valid = true ∧ RecordAt s 1 r ∧ r.state = .outTeller ∧
    s.roster.get r.depositor = some payer ∧
    s.advices.entries.find? (fun x => x.index == 0) = some { note with matched := some 1 } ∧
    (s.store.params.countTolerance : Int) < |(1001 : Int) - 1000| ∧
    ¬ (s.store.params.countTolerance : Int) < |(1000 : Int) - 1000| ∧
    (∀ x ∈ s.register.records, x.number ≠ 65535) ∧ RecordAt s 2 (bag 2 .counted) ∧ RecordAt s 3 (bag 3 .stored) := by
  unfold ReadyLink TakesFrames RecordAt; decide

theorem test_meets_ManifestCommandsRunTheManifest :
    let r : Record := { bag 1 .stored with handling := some .through }
    let s := manifestOf (List.range' 2 23) (holding [r] bench)
    let u := manifestOf [1] (holding [bag 1 .outCarrier] bench)
    let v := manifestOf [1] (holding [bag 1 .stored] bench)
    ReadyLink s 3 ∧ s.store.valid = true ∧ bench.manifest.current = none ∧
    s.manifest.current = some ⟨4, none, List.range' 2 23⟩ ∧ RecordAt s 1 r ∧ 1 ∉ List.range' 2 23 ∧
    r.state = .stored ∧ r.handling = some .through ∧ (List.range' 2 23).length < 24 ∧
    RecordAt u 1 (bag 1 .outCarrier) ∧ u.manifest.current = some ⟨4, none, [1]⟩ ∧
    (bag 1 .outCarrier).state = .outCarrier ∧
    RecordAt v 1 (bag 1 .stored) ∧ v.manifest.current = some ⟨4, none, [1]⟩ ∧ (bag 1 .stored).state ≠ .outCarrier := by
  unfold ReadyLink TakesFrames RecordAt; decide

/-! ## Witnesses: the register and the tables -/

theorem test_meets_RecordCommandsChangeOneRecord :
    let r : Record := { bag 1 .held with reasons := 0x800#12 }
    ReadyLink (holding [r] bench) 1 ∧ (holding [r] bench).store.valid = true ∧ RecordAt (holding [r] bench) 1 r ∧
    r.state = .held ∧ r.reasons.getLsbD (11 : Fin 12).val = true ∧ (11 : Fin 12) ≠ 3 ∧
    RecordAt (holding [bag 2 .missing] bench) 2 (bag 2 .missing) ∧ (bag 2 .missing).state = .missing ∧
    r.state ≠ .stranded ∧ r.state ≠ .missing := by
  unfold ReadyLink TakesFrames RecordAt; decide

theorem test_meets_PurgeRemovesTerminalRecords :
    let s : State := linkIn 1 .executing [] (some ⟨.purge, 9, .deliver⟩)
      { holding [bag 1 .counted, bag 2 .stored] bench with
        register := { (holding [bag 1 .counted, bag 2 .stored] bench).register with walk := some ⟨10, 0⟩ } }
    ReadyLink bench 1 ∧ (bench.links.get 1).long = none ∧ bench.store.valid = true ∧ bench.register.walk = none ∧
    (s.register.records.map Record.number).Nodup ∧ s.register.walk = some ⟨10, 0⟩ ∧
    (s.links.get 1).long = some ⟨.purge, 9, .deliver⟩ := by
  unfold ReadyLink TakesFrames; decide

/-- A new tag with the last slot free alone is the boundary of the lowest-slot clause; here slot 0 is free. -/
theorem test_meets_AdviceCommandsChangeTheTable :
    let r : Record := { bag 1 .held with reasons := 0x002#12 }
    let s := holding [r] bench
    ReadyLink s 1 ∧ s.store.valid = true ∧ s.roster.get 0 = some payer ∧ (∀ a ∈ s.advices.entries, a.tag ≠ 500) ∧
    (∀ a ∈ s.advices.entries, a.index ≠ 0) ∧ (∀ j < 0, ∃ a ∈ s.advices.entries, a.index = j) ∧
    (s.register.records.find? fun x => x.state == .held && x.tag == some 500 && x.reasons.getLsbD 1) = some r ∧
    (∀ x ∈ bench.register.records, x.state = .held → x.tag = some 500 → x.reasons.getLsbD 1 = false) ∧
    (∃ a ∈ (advised [note] bench).advices.entries, a.tag = 500) ∧
    ((advised [note] bench).advices.entries.find? fun x => x.tag == 500) = some note ∧ note.matched = none ∧
    ({ note with matched := some 1 } : Advice).matched ≠ none ∧
    (∀ w ∈ (some 30000 : Option Nat), 1 ≤ w ∧ w ≤ 30000) := by
  refine ⟨?_, by decide, by decide, by decide, by decide, by simp, by decide, by decide, ⟨note, ?_⟩, by decide⟩
  · unfold ReadyLink TakesFrames; decide
  · decide

theorem test_meets_DepositorCommandsChangeOneSlot :
    ReadyLink bench 1 ∧ bench.store.valid = true ∧ bench.roster.get 127 = none ∧ bench.roster.get 0 = some payer ∧
    (∀ i : DepositorId, i ≠ 0 → bench.roster.get i = none) ∧
    (∀ c : ChuteId, (bench.chutes.get c).state = .idle) ∧ bench.register.records = [] ∧
    bench.advices.entries = [] := by
  unfold ReadyLink TakesFrames; decide

end Sys2Proof.Machine.Slice0
end

section
/-! The end of a drum turn without an arrival (R56). -/

namespace Sys2Proof.Machine

variable {s : State} {c : ChuteId} {d : DepositorId} {ms : Nat} {p : Bool}

/-- A turn that ends for good leaves the chute IDLE, with its indication held for 4 s. -/
theorem turnEnded_last {atEnd going : Indication} :
    turnEnded c d true atEnd going s =
      modifyChute c (fun k => { k with state := .idle, hold := some (atEnd, 4000) }) s := rfl

/-- A turn that ends within a session takes the chute back to SESSION, the idle timer started again. -/
theorem turnEnded_going {atEnd going : Indication} :
    turnEnded c d false atEnd going s =
      modifyChute c
        (fun k => { k with
          state := .session d (s.store.params.sessionIdle * 1000), hold := some (going, 4000) }) s := rfl

/-- In DRUM the expiry returns the reservation and ends the turn by the end pending mark. -/
theorem expireDrum_of_drum (h : (s.chutes.get c).state = .drum d ms p) :
    expireDrum c s = turnEnded c d p .ended .noBag (returnReservation s) := by
  simp only [expireDrum, State.chute, h]

/-- The command is the expiry at its chute, in every state. -/
theorem exec_drumWindowExpiry : exec (.drumWindowExpiry c) s = .next (expireDrum c s) := rfl

end Sys2Proof.Machine

open Sys2Proof Sys2Proof.Machine

/-- Settles O33: the two ends of the turn are the two values of the end pending mark. -/
theorem drumWindowReturnsTheReservation : Obligations.DrumWindowReturnsTheReservation := by
  unfold Obligations.DrumWindowReturnsTheReservation
  intro c d ms p s hdrum
  rw [exec_drumWindowExpiry, expireDrum_of_drum hdrum]
  cases p with
  | true => rw [turnEnded_last]; rfl
  | false => rw [turnEnded_going, returnReservation_store]; rfl

end

section
/-! The presence report at the station (R74). -/

namespace Sys2Proof.Machine

variable {s : State}

/-- The command is the completion of the load, in every state. -/
theorem exec_presenceReport : exec .presenceReport s = .next (completeLoad s) := rfl

/-- In LOADING the load completes: the settle timer and the first of the attempts in force start (R74, R77, R78). -/
theorem completeLoad_of_loading {n : Nat} {src : Source} {ms : Nat} (h : s.station.state = .loading n src ms) :
    completeLoad s =
      setStation
        (.measuring n src
          { settle := .running s.store.params.settleDelay, made := 0, allowed := s.store.params.readAttempts,
            reads := .attempt 250 }) s := by
  simp only [completeLoad, h, Config.attemptMs]

/-- Outside LOADING there is no load to complete. -/
theorem completeLoad_of_not_loading (h : ∀ n src ms, s.station.state ≠ .loading n src ms) : completeLoad s = s := by
  unfold completeLoad
  split
  case h_1 n src ms hloading => exact absurd hloading (h n src ms)
  case h_2 => rfl

end Sys2Proof.Machine

open Sys2Proof Sys2Proof.Machine

/-- Settles O36: the two clauses are the two cases of the load's completion. -/
theorem presenceStartsMeasuring : Obligations.PresenceStartsMeasuring := by
  unfold Obligations.PresenceStartsMeasuring
  refine fun s => ⟨fun n src ms hloading => ?_, fun hother => ?_⟩
  · rw [exec_presenceReport, completeLoad_of_loading hloading, setStation]
  · rw [exec_presenceReport, completeLoad_of_not_loading hother]

end

section
/-! The door-left-open timer (R141, R143). -/

namespace Sys2Proof.Machine

variable {s : State} {c : CompartmentId} {op : DoorOp} {ms : Nat}

/-- The command is the timer's expiry at its door, in every state. -/
theorem exec_doorLeftOpenTimerExpiry : exec (.doorLeftOpenTimerExpiry c) s = .next (expireLeftOpen c s) := rfl

/-- The command is the sensor's report at its door, in every state. -/
theorem exec_doorOpened : exec (.doorOpened c) s = .next (openedDoor c s) := rfl

/-- The door just set. -/
@[simp] theorem setDoor_door_self {d : Door} : ((setDoor c d s).cabinet.compartments.get c).door = d := by
  simp [setDoor, modifyBox]

section
variable {forced : Bool} {inFlight : Option DoorOp} {left : Option Nat}

/-- In OPEN the running timer is stopped and the notice raised, whatever is left of its time (R143). -/
theorem expireLeftOpen_of_running (h : (s.cabinet.compartments.get c).door = .opened forced inFlight (some ms)) :
    expireLeftOpen c s = raise .doorLeftOpen (setDoor c (.opened forced inFlight none) s) := by
  simp only [expireLeftOpen, State.box, h]

/-- A stopped timer does not expire (R143). -/
theorem expireLeftOpen_of_stopped (h : (s.cabinet.compartments.get c).door = .opened forced inFlight none) :
    expireLeftOpen c s = s := by
  simp only [expireLeftOpen, State.box, h]

/-- A door that is open does not open again: its timer is not restarted (R141, R143). -/
theorem openedDoor_of_opened (h : (s.cabinet.compartments.get c).door = .opened forced inFlight left) :
    openedDoor c s = s := by
  simp only [openedDoor, State.box, h]

end

/-- A regular opening: the operation goes on and the timer starts (R141). -/
theorem openedDoor_of_unlocked (h : (s.cabinet.compartments.get c).door = .unlocked op ms) :
    openedDoor c s = setDoor c (.opened false (some op) (leftOpenStart s)) s := by
  simp only [openedDoor, State.box, h]

/-- A forced opening of a locked door starts an unattended operation and the timer (R141). -/
theorem openedDoor_of_locked (h : (s.cabinet.compartments.get c).door = .locked) :
    openedDoor c s = raise .doorForced (setDoor c (.opened true (some .unattended) (leftOpenStart s)) s) := by
  simp only [openedDoor, State.box, h]

/-- A forced opening during a scan keeps the scan's operation and starts the timer (R141). -/
theorem openedDoor_of_scanning (h : (s.cabinet.compartments.get c).door = .scanning op ms) :
    openedDoor c s = raise .doorForced (setDoor c (.opened true (some op) (leftOpenStart s)) s) := by
  simp only [openedDoor, State.box, h]

/-- Every entry to OPEN starts the timer with the time in force (R141). -/
theorem openedDoor_starts_timer (h : ∀ f o m, (s.cabinet.compartments.get c).door ≠ .opened f o m) :
    ∃ f o, ((openedDoor c s).cabinet.compartments.get c).door = .opened f o (leftOpenStart s) := by
  cases hdoor : (s.cabinet.compartments.get c).door with
  | locked => exact ⟨true, some .unattended, by simp [openedDoor_of_locked hdoor]⟩
  | scanning op ms => exact ⟨true, some op, by simp [openedDoor_of_scanning hdoor]⟩
  | unlocked op ms => exact ⟨false, some op, by simp [openedDoor_of_unlocked hdoor]⟩
  | opened f o m => exact absurd hdoor (h f o m)

end Sys2Proof.Machine

open Sys2Proof Sys2Proof.Machine

/-- Settles O48: the timer running, the timer stopped, and the entry to OPEN from each other door state. -/
theorem doorLeftOpenIsRaisedOnce : Obligations.DoorLeftOpenIsRaisedOnce := by
  unfold Obligations.DoorLeftOpenIsRaisedOnce
  refine fun c forced op s => ⟨fun ms hrunning => ?_, fun hstopped => ?_, fun hclosed => ?_⟩
  · rw [exec_doorLeftOpenTimerExpiry, expireLeftOpen_of_running hrunning]
  · rw [exec_doorLeftOpenTimerExpiry, exec_doorOpened, expireLeftOpen_of_stopped hstopped,
      openedDoor_of_opened hstopped]
    exact ⟨rfl, rfl⟩
  · obtain ⟨f, o, hdoor⟩ := openedDoor_starts_timer hclosed
    exact ⟨openedDoor c s, f, o, exec_doorOpened, hdoor⟩

end

section
/-! The branch clock's advance and the date roll (R176, R177). -/

namespace Sys2Proof.Machine

variable {s : State}

/-- The command is one advance of the timebase, in every state. -/
theorem exec_clockAdvance : exec .clockAdvance s = .next (advance s) := rfl

theorem nextSecond_eq {t : Nat} : nextSecond t = if t < 86399 then t + 1 else 0 := rfl

theorem nextDate_eq {d : Nat} : nextDate d = if d < 65535 then d + 1 else 0 := rfl

theorem clock_isValid_iff {c : Clock} : c.isValid = true ↔ c.validity = .valid := by
  cases h : c.validity <;> simp [Clock.isValid, h]

/-- An advance that does not raise the roll moves the seconds of day alone (R176). -/
theorem advance_of_no_roll (h : s.clock.validity ≠ .valid ∨ nextSecond s.clock.seconds ≠ s.store.params.cutoff) :
    advance s = { s with clock := { s.clock with seconds := nextSecond s.clock.seconds } } := by
  have hno : ¬(s.clock.isValid ∧ nextSecond s.clock.seconds = s.store.params.cutoff) := by
    rwa [clock_isValid_iff, not_and_or]
  exact if_neg hno

/-- An advance of a VALID clock to the cutoff rolls the date of the clock so advanced (R177). -/
theorem advance_of_roll (hvalid : s.clock.validity = .valid)
    (hcutoff : nextSecond s.clock.seconds = s.store.params.cutoff) :
    advance s = rollDate { s with clock := { s.clock with seconds := nextSecond s.clock.seconds } } :=
  if_pos ⟨clock_isValid_iff.mpr hvalid, hcutoff⟩

/-- The roll with each owner's effect in its place: the clock's reading (R177), the counters (R22), the advice
table (R34) and the roster (R40). -/
theorem rollDate_eq :
    rollDate s =
      raise .dateRolled
        { s with
          clock := { s.clock with
            date := nextDate s.clock.date
            lastChange := some ⟨nextDate s.clock.date, s.store.params.cutoff, .cutoff⟩ }
          register := s.register.rolled s.clock.date
          advices := s.advices.expired (nextDate s.clock.date)
          roster := s.roster.map (Option.map Depositor.renewed) } := rfl

end Sys2Proof.Machine

open Sys2Proof Sys2Proof.Machine

/-- Settles O27: the advance without a roll, and the roll's effects with the cutoff as the second reached. -/
theorem advanceMovesTheClock : Obligations.AdvanceMovesTheClock := by
  unfold Obligations.AdvanceMovesTheClock
  simp only [← nextSecond_eq, ← nextDate_eq]
  refine ⟨fun s hno => ?_, fun s hvalid hcutoff => ?_⟩
  · rw [exec_clockAdvance, advance_of_no_roll hno]
  · rw [exec_clockAdvance, advance_of_roll hvalid hcutoff, rollDate_eq, ← hcutoff, ← hvalid]
    rfl

end

section
/-! A raise on every link, and the attention line (R201). -/

namespace Sys2Proof.Machine

variable {s : State} {k : Notice} {m : Nat} {c : NoticeCell} {l : Link}

/-- Where the kind is ENABLED the flag is set and the count rises, staying at 255 once there. -/
theorem NoticeCell.raised_of_enabled (h : c.enabled = true) : c.raised m = ⟨true, true, min 255 (c.count + m)⟩ := by
  simp only [NoticeCell.raised, h, if_true]

/-- Where the kind is DISABLED the raise is lost. -/
theorem NoticeCell.raised_of_disabled (h : ¬ c.enabled = true) : c.raised m = c := if_neg h

/-- A raise on one link: the cell of the kind is raised and every other cell stays. -/
theorem Link.raised_notices_get (i : Fin 20) :
    (l.raised k m).notices.get i = if i = k.cell then (l.notices.get i).raised m else l.notices.get i := by
  rw [Link.raised, Table.get_set]
  by_cases hcell : i = k.cell
  · rw [if_pos hcell, if_pos hcell, hcell]
  · rw [if_neg hcell, if_neg hcell]

/-- A raise on one link with the two tests of a cell, its kind and its enable, written as one. -/
theorem Link.raised_eq :
    l.raised k m =
      { l with
        notices := .tabulate fun i =>
          let cell := l.notices.get i
          if i = k.cell ∧ cell.enabled = true then ⟨true, true, min 255 (cell.count + m)⟩ else cell } := by
  refine congrArg (fun t => { l with notices := t }) (Table.ext_get fun i => (Link.raised_notices_get i).trans ?_)
  rw [Table.get_tabulate]
  by_cases hcell : i = k.cell
  · by_cases henabled : (l.notices.get i).enabled = true
    · rw [if_pos hcell, if_pos ⟨hcell, henabled⟩, NoticeCell.raised_of_enabled henabled]
    · rw [if_pos hcell, if_neg fun h => henabled h.2, NoticeCell.raised_of_disabled henabled]
  · rw [if_neg hcell, if_neg fun h => hcell h.1]

/-- One raise or more reaches every link. -/
theorem raiseTimes_of_pos (h : 1 ≤ m) : raiseTimes k m s = { s with links := s.links.map (Link.raised k m) } :=
  if_neg (Nat.one_le_iff_ne_zero.mp h)

/-- The attention line is the disjunction of the flags. -/
theorem Link.attention_iff : l.attention = true ↔ ∃ i, (l.notices.get i).flag = true := by
  rw [Link.attention, List.any_eq_true]
  constructor
  · rintro ⟨cell, hmem, hflag⟩
    obtain ⟨i, rfl⟩ := Table.exists_get_of_mem hmem
    exact ⟨i, hflag⟩
  · rintro ⟨i, hflag⟩
    exact ⟨_, l.notices.get_mem i, hflag⟩

end Sys2Proof.Machine

open Sys2Proof Sys2Proof.Machine

/-- Settles O12: the raise link by link and cell by cell; the attention line is each link's own. -/
theorem raiseMarksEnabledLinks : Obligations.RaiseMarksEnabledLinks := by
  unfold Obligations.RaiseMarksEnabledLinks
  refine ⟨fun k m s hm => ?_, fun l s => Link.attention_iff⟩
  have hlinks : s.links.map (Link.raised k m) = .tabulate fun l => (s.links.get l).raised k m :=
    Table.ext_get fun l => by rw [Table.get_map, Table.get_tabulate]
  rw [raiseTimes_of_pos hm, hlinks]
  simp only [Link.raised_eq]

end

section
-- One theorem after another: elaborated side by side, the whole text asks for more threads than the check has memory for.
set_option Elab.async false
/-! Every command row, said once (Table 35, R192): its link, its role and form tests, and the answer of its owner. -/

namespace Sys2Proof.Machine

variable {s t : State} {i : Instr} {l : LinkId} {tag : Nat} {c : Command}

/-! ## The taking of a command's frame -/

/-- The state an owner's answer carries. -/
def Answer.state : Answer → State
  | .done _ _ s => s
  | .started s => s

@[simp] theorem Answer.state_done {code : CompletionCode} {results : List ResultRecord} :
    (Answer.done code results s).state = s := rfl
@[simp] theorem Answer.state_started : (Answer.started s).state = s := rfl
@[simp] theorem declined_state {code : CompletionCode} : (declined code s).state = s := rfl
@[simp] theorem withSummary_state {code : CompletionCode} : (withSummary code s).state = s := rfl
@[simp] theorem withClock_state {code : CompletionCode} : (withClock code s).state = s := rfl
@[simp] theorem withManifest_state {code : CompletionCode} {more : List ResultRecord} :
    (withManifest code more s).state = s := rfl
@[simp] theorem withParameters_state {code : CompletionCode} : (withParameters l code s).state = s := rfl

/-- R192: the role test of a command row; SET PARAMETER's is that of its parameter (R208). -/
def roleOf : Instr → Bool
  | .setParameter l _ n _ => parameterAllowed l n
  | i => match commandOf i with
    | some (l, _, c) => c.allowed l
    | none => false

/-- R191: the form test of a command row's fields. -/
def formOf : Instr → Bool
  | .reportProgram _ _ _ _ sources => 1 ≤ sources.length && sources.length ≤ 12
  | .setClock _ _ seconds date => seconds.isSome == date.isSome
  | .setParameter _ _ n v => n.isSome == v.isSome
  | .handOut _ _ _ custody => 1 ≤ custody.length && custody.length ≤ 4
  | .loadAdvice _ _ entries => 1 ≤ entries.length && entries.length ≤ 8
  | _ => true

/-- The owner's answer to a command row. -/
def ownerOf : Instr → State → Answer
  | .readRecord _ _ n => ownReadRecord n
  | .listRecords _ _ f => ownListRecords f
  | .readCompartment _ _ c => ownReadCompartment c
  | .readChute _ _ c => ownReadChute c
  | .readStation _ _ => ownReadStation
  | .readAdvice _ _ b v => ownReadAdvice b v
  | .readDepositor _ _ n => ownReadDepositor n
  | .readCounters l _ n => ownReadCounters l n
  | .clearLinkCounters l _ => ownClearLinkCounters l
  | .readNotices l _ => ownReadNotices l
  | .noticeEnable l _ k => ownNoticeEnable l k
  | .reportProgram l _ m n k => ownReportProgram l m n k
  | .reportStop l _ => ownReportStop l
  | .setForcedError l _ n => ownSetForcedError l n
  | .setClock _ _ a b => ownSetClock a b
  | .safeState _ _ v => ownSafeState v
  | .retain _ _ r => ownRetain r
  | .relinquish _ _ r => ownRelinquish r
  | .setWindow _ _ k n f => ownSetWindow k n f
  | .initialiseStore _ _ => ownInitialiseStore
  | .setParameter l _ n v => ownSetParameter l n v
  | .cosign l _ r => ownCosign l r
  | .claim l _ r => ownClaim l r
  | .yieldResource l _ r => ownYield l r
  | .handOut l _ c n => ownHandOut l c n
  | .openDoor l _ c => ownOpenDoor l c
  | .inventory l _ c => ownInventory l c
  | .loadAdvice _ _ e => ownLoadAdvice e
  | .cancelAdvice _ _ g => ownCancelAdvice g
  | .setDepositor _ _ n f => ownSetDepositor n f
  | .removeDepositor _ _ n => ownRemoveDepositor n
  | .setCompartment _ _ c k v => ownSetCompartment c k v
  | .setReserve _ _ k n => ownSetReserve k n
  | .setRule _ _ n f => ownSetRule n f
  | .intakeMask _ _ c => ownIntakeMask c
  | .intakeUnmask _ _ c => ownIntakeUnmask c
  | .intakeCloseAll _ _ => ownIntakeCloseAll
  | .intakeOpenAll _ _ => ownIntakeOpenAll
  | .clearReason _ _ n r => ownClearReason n r
  | .voidRecord _ _ n => ownVoid n
  | .purge _ _ d => ownPurge d
  | .reEnter l _ n => ownReEnter l n
  | .clearStation l _ => ownClearStation l
  | .clearChute l _ c => ownClearChute l c
  | .countResult _ _ n a b => ownCountResult n a b
  | .manifestOpen _ _ => ownManifestOpen
  | .manifestAdd _ _ n => ownManifestAdd n
  | .manifestDrop _ _ n => ownManifestDrop n
  | .manifestClose _ _ => ownManifestClose
  | .manifestAbandon _ _ => ownManifestAbandon
  | _ => declined .ok

/-- R192: a command row but COLLECT and DISCARD is the taking of its frame, with its own tests and its owner. -/
theorem exec_command (h : commandOf i = some (l, tag, c)) (hcollect : c ≠ .collect) (hdiscard : c ≠ .discard) :
    exec i s = .next (takeCommand l tag c (roleOf i) (formOf i) (ownerOf i) s) := by
  cases i <;> cases h <;> first | contradiction | rfl

/-- R192: a command row but COLLECT and DISCARD, allowed to its link's role, but for SET PARAMETER. -/
theorem roleOf_eq (h : commandOf i = some (l, tag, c)) (hc : c ≠ .setParameter) : roleOf i = c.allowed l := by
  cases i <;> cases h <;> first | contradiction | rfl

/-- R194: COLLECT and DISCARD are the taking of their frame. -/
theorem exec_collect_or_discard (h : commandOf i = some (l, tag, c)) (hc : c = .collect ∨ c = .discard) :
    ∃ act, (act = Link.collected tag ∨ act = Link.discarded tag) ∧ exec i s = .next (takeResult l tag c act s) := by
  cases i <;> cases h <;> first | exact ⟨_, .inl rfl, rfl⟩ | exact ⟨_, .inr rfl, rfl⟩ | simp at hc

end Sys2Proof.Machine
end

section
-- One theorem after another: elaborated side by side, the whole text asks for more threads than the check has memory for.
set_option Elab.async false
/-! What the characters of a frame can do, and what a step can do (R186, R187, R192), said once for every property. -/

namespace Sys2Proof.Machine

variable {s t : State} {i : Instr} {l : LinkId} {tag : Nat} {c : Command} {P : State → Prop}

/-! ## The traffic of a link -/

/-- A change of a link that moves its receiver, its waiting frames and its counters alone. -/
def Link.Traffic (f : Link → Link) : Prop :=
  ∀ k, f k = { k with receiver := (f k).receiver, queue := (f k).queue, counters := (f k).counters }

/-- A property that the traffic of links keeps. -/
def KeptByTraffic (P : State → Prop) : Prop := ∀ l f s, Link.Traffic f → P s → P (modifyLink l f s)

theorem Link.Traffic.receivedWhole : Link.Traffic Link.receivedWhole := fun _ => rfl

theorem Link.Traffic.checkFailed : Link.Traffic Link.checkFailed := fun _ => rfl

theorem Link.Traffic.receiver {r : Receiver} : Link.Traffic fun k => { k with receiver := r } := fun _ => rfl

theorem Link.Traffic.refusedWith {code : RefusalCode} {n : Nat} : Link.Traffic (Link.refusedWith tag code n) :=
  fun _ => rfl

theorem Link.Traffic.then {f g : Link → Link} (hf : Link.Traffic f) (hg : Link.Traffic g) :
    Link.Traffic fun k => g (f k) := by
  intro k
  have hfk := hf k
  have hgk := hg (f k)
  dsimp only
  rw [hgk]
  generalize g (f k) = u at hgk ⊢
  rw [hfk]

/-- R195: a refusal, whichever the phase, is traffic. -/
theorem takeUnknown_keeps {code : Nat} (hP : KeptByTraffic P) (hs : P s) : P (takeUnknown l tag code s) := by
  refine hP _ _ _ (fun k => ?_) hs
  dsimp only
  split <;> rfl

/-- R195: COLLECT or DISCARD with a body draws a refusal in every phase. -/
theorem takeResultMalformed_keeps (hP : KeptByTraffic P) (hs : P s) : P (takeResultMalformed l tag c s) := by
  unfold takeResultMalformed takeResult
  split
  · refine hP _ _ _ (fun k => ?_) hs
    dsimp only
    split <;> rfl
  · exact hs

/-- R195: a command whose body does not hold its fields draws a refusal at most. -/
theorem takeCommand_malformed_keeps {role : Bool} {owner : State → Answer} (hP : KeptByTraffic P) (hs : P s) :
    P (takeCommand l tag c role false owner s) := by
  have hr : P (modifyLink l Link.receivedWhole s) := hP _ _ _ .receivedWhole hs
  unfold takeCommand
  split
  · dsimp only
    split
    · exact hP _ _ _ .refusedWith hr
    · exact hP _ _ _ .refusedWith hr
    · split
      · exact hP _ _ _ .refusedWith hr
      · rw [if_pos (by rfl)]
        exact hP _ _ _ .refusedWith hr
  · exact hs

/-! ## The characters of a frame -/

/-- A command row that a frame carries runs as that row. -/
theorem runCommand_eq : runCommand i s = if (commandOf i).isSome then exec i s else .next s := by
  cases i <;> rfl

section
variable (hP : KeptByTraffic P) (hcommand : ∀ i s, (commandOf i).isSome → P s → ∃ t, exec i s = .next t ∧ P t)
include hP hcommand

/-- R192, R195: what a checked frame does. -/
theorem takeFrame_keeps {kind code : Nat} {body : List Byte} (hs : P s) :
    ∃ t, takeFrame l kind tag code body s = .next t ∧ P t := by
  unfold takeFrame
  split
  · exact ⟨_, rfl, takeUnknown_keeps hP hs⟩
  · split
    · rw [runCommand_eq]
      split
      · exact hcommand _ _ ‹_› hs
      · exact ⟨_, rfl, hs⟩
    · exact hcommand (.intakeMask l tag 4) s rfl hs
    · refine ⟨_, rfl, ?_⟩
      unfold takeMalformed
      split
      · exact takeResultMalformed_keeps hP hs
      · exact takeCommand_malformed_keeps hP hs

/-- R187: what the last character of a frame does. -/
theorem completeFrame_keeps {taken : List Byte} (hs : P s) : ∃ t, completeFrame l taken s = .next t ∧ P t := by
  unfold completeFrame
  dsimp only
  split
  · split
    · exact takeFrame_keeps hP hcommand hs
    · exact ⟨_, rfl, hs⟩
  · exact ⟨_, rfl, hP _ _ _ .checkFailed hs⟩

/-- R187: what a character within a frame does. -/
theorem takeInFrame_keeps {taken : List Byte} {b : Byte} (hs : P s) :
    ∃ t, takeInFrame l taken b s = .next t ∧ P t := by
  unfold takeInFrame
  split
  · split
    · exact ⟨_, rfl, hP _ _ _ .checkFailed hs⟩
    · exact ⟨_, rfl, hP _ _ _ .receiver hs⟩
  · split
    · exact completeFrame_keeps hP hcommand hs
    · exact ⟨_, rfl, hP _ _ _ .receiver hs⟩

/-- R186: what a character does. -/
theorem takeCharacter_keeps {b : Byte} (hs : P s) : ∃ t, takeCharacter l b s = .next t ∧ P t := by
  unfold takeCharacter
  split
  · split
    · split
      · exact ⟨_, rfl, hP _ _ _ .receiver hs⟩
      · exact ⟨_, rfl, hs⟩
    · exact takeInFrame_keeps hP hcommand hs
    · exact ⟨_, rfl, hs⟩
  · exact ⟨_, rfl, hs⟩

/-- A property that traffic and the command rows keep is kept by received characters, which always answer. -/
theorem takeCharacters_keeps (chars : List Byte) (hs : P s) : ∃ t, takeCharacters l chars s = .next t ∧ P t := by
  induction chars generalizing s with
  | nil => exact ⟨s, rfl, hs⟩
  | cons b bs ih =>
    obtain ⟨u, hu, hPu⟩ := takeCharacter_keeps hP hcommand hs
    obtain ⟨t, ht, hPt⟩ := ih hPu
    exact ⟨t, by rw [takeCharacters, hu]; exact ht, hPt⟩

end

/-! ## Every command answers -/

/-- A command row answers a next state. -/
theorem exec_command_next (h : (commandOf i).isSome) (s : State) : ∃ t, exec i s = .next t := by
  obtain ⟨⟨l, tag, c⟩, hi⟩ := Option.isSome_iff_exists.mp h
  by_cases hc : c = .collect ∨ c = .discard
  · obtain ⟨act, _, hact⟩ := exec_collect_or_discard hi hc
    exact ⟨_, hact⟩
  · rw [not_or] at hc
    exact ⟨_, exec_command hi hc.1 hc.2⟩

/-- Every row of the table answers a next state. -/
theorem exec_next (i : Instr) (s : State) : ∃ t, exec i s = .next t := by
  cases hi : commandOf i with
  | some _ => exact exec_command_next (by rw [hi]; rfl) s
  | none =>
    cases i
    case frameReceived l chars =>
      obtain ⟨t, ht, _⟩ := takeCharacters_keeps (P := fun _ => True) (fun _ _ _ _ _ => trivial)
        (fun i s h _ => (exec_command_next h s).imp fun _ ht => ⟨ht, trivial⟩) chars trivial
      exact ⟨t, ht⟩
    all_goals exact ⟨_, rfl⟩

/-! ## Every step -/

/-- A step is a tick on an empty queue, or the command at its front on the state with the rest. -/
theorem step_cases (h : step s = .next t) :
    (s.pending = [] ∧ t = tick s) ∨ ∃ i rest, s.pending = i :: rest ∧ exec i { s with pending := rest } = .next t := by
  unfold step at h
  split at h
  case h_1 hq => exact .inl ⟨hq, by cases h; rfl⟩
  case h_2 i rest hq => exact .inr ⟨i, rest, hq, h⟩

/-- R192: a property that the taking of frames, the owners' answers and the events keep is kept by every row. -/
theorem exec_keeps (hP : KeptByTraffic P)
    (hcommand : ∀ i s t, (commandOf i).isSome → P s → exec i s = .next t → P t)
    (hevent : ∀ i s t, commandOf i = none → (∀ l chars, i ≠ .frameReceived l chars) → P s → exec i s = .next t → P t)
    (hs : P s) (h : exec i s = .next t) : P t := by
  cases hi : commandOf i with
  | some _ => exact hcommand i s t (by rw [hi]; rfl) hs h
  | none =>
    by_cases hf : ∃ l chars, i = .frameReceived l chars
    · obtain ⟨l, chars, rfl⟩ := hf
      obtain ⟨u, hu, hPu⟩ := takeCharacters_keeps (l := l) hP
        (fun i s hi hs => (exec_command_next hi s).imp fun t ht => ⟨ht, hcommand i s t hi hs ht⟩) chars hs
      cases hu.symm.trans h
      exact hPu
    · exact hevent i s t hi (fun l chars e => hf ⟨l, chars, e⟩) hs h

/-- A property that the queue does not touch, that a tick keeps and every row keeps, is kept by every step. -/
theorem step_keeps (hpending : ∀ s q, P s → P { s with pending := q }) (htick : ∀ s, P s → P (tick s))
    (hexec : ∀ i s t, P s → exec i s = .next t → P t) (hs : P s) (h : step s = .next t) : P t := by
  rcases step_cases h with ⟨_, rfl⟩ | ⟨i, rest, _, hi⟩
  · exact htick s hs
  · exact hexec i _ t (hpending s rest hs) hi

end Sys2Proof.Machine

open Sys2Proof Sys2Proof.Machine

/-- Settles O1: the step's own equation on a queue with a front. -/
theorem stepRunsFrontCommand : Obligations.StepRunsFrontCommand := by
  unfold Obligations.StepRunsFrontCommand
  intro c rest s
  rfl

/-- Settles O3: the command rows by their one shape, FRAME_RECEIVED by its characters, the other events at once. -/
theorem everyCommandAnswersNext : Obligations.EveryCommandAnswersNext := by
  unfold Obligations.EveryCommandAnswersNext
  exact exec_next

end

section
-- One theorem after another: elaborated side by side, the whole text asks for more threads than the check has memory for.
set_option Elab.async false
/-! What the invariants of Safety.lean watch, and which operations leave it as it was: the part's steps are gone
through once, for all of the invariants together. -/

namespace Sys2Proof

variable {α : Type} {n : Nat}

/-- The number of cells with a property after one cell was set. -/
theorem Table.countP_set (p : α → Bool) (t : Table α n) (i : Fin n) (a : α) :
    (t.set i a).cells.countP p + (if p (t.get i) then 1 else 0) = t.cells.countP p + (if p a then 1 else 0) := by
  have hi : i.val < t.cells.length := by rw [t.size]; exact i.isLt
  have hle : (if p t.cells[i.val] then 1 else 0) ≤ t.cells.countP p := by
    split
    next h => exact List.one_le_countP_iff.mpr ⟨_, List.getElem_mem hi, h⟩
    next => exact Nat.zero_le _
  have hget : t.cells[i.val] = t.get i := rfl
  have hset : (t.set i a).cells.countP p = _ := List.countP_set hi
  rw [hget] at hle hset
  omega

/-- Setting a cell to one that has the property as the old one had it keeps the number of cells with it. -/
theorem Table.countP_set_of_eq {p : α → Bool} {t : Table α n} {i : Fin n} {a : α} (h : p a = p (t.get i)) :
    (t.set i a).cells.countP p = t.cells.countP p := by
  have := t.countP_set p i a
  rw [h] at this
  omega

/-- A change of every cell that keeps a property keeps the number of cells with it. -/
theorem Table.countP_map_of_eq {p : α → Bool} {t : Table α n} {f : α → α} (h : ∀ a, p (f a) = p a) :
    (t.map f).cells.countP p = t.cells.countP p := by
  rw [Table.map, List.countP_map]
  exact congrFun (congrArg List.countP (funext h)) _

end Sys2Proof

namespace Sys2Proof.Machine

variable {s t u : State}

/-! ## What is watched -/

/-- The link and the work of an operation, without its delivery (R147). -/
def DoorOp.issuer : DoorOp → Option (LinkId × DoorWork)
  | .unattended => none
  | .command l work _ => some (l, work)

/-- A link that keeps what R185 says of its phase, and that does not leave READY. -/
def Link.Kept (k k' : Link) : Prop := k.PhaseHolds → k'.PhaseHolds ∧ (k.phase = .ready → k'.phase = .ready)

/-- The parts of the state that the invariants speak of. -/
inductive Watch where
  | claims | links | register | manifest | clock
  deriving DecidableEq

/-- A watched part of the state is as it was, or lost something the invariants do not need. -/
def Kept : Watch → State → State → Prop
  | .claims, s, t =>
    t.claims = s.claims ∧
      ∀ c op ms, (t.cabinet.compartments.get c).door = .unlocked op ms →
        ∃ op' ms', (s.cabinet.compartments.get c).door = .unlocked op' ms' ∧ op'.issuer = op.issuer
  | .links, s, t => ∀ l, (s.links.get l).Kept (t.links.get l)
  | .register, s, t =>
    (t.register.records.map Record.number).Sublist (s.register.records.map Record.number) ∧
      t.register.nextNumber = s.register.nextNumber ∧ t.register.reservations = s.register.reservations ∧
      t.chutes.cells.countP Chute.inDrum = s.chutes.cells.countP Chute.inDrum
  | .manifest, s, t =>
    t.manifest.counter = s.manifest.counter ∧
      ∀ m, t.manifest.current = some m →
        ∃ m', s.manifest.current = some m' ∧ m.number = m'.number ∧ m.entries.Sublist m'.entries
  | .clock, s, t =>
    t.clock.seconds = s.clock.seconds ∧ t.clock.date = s.clock.date ∧
      t.store.params.cutoff = s.store.params.cutoff

/-- Every watched part of the state is kept; what an operation does not write is kept as it stands. -/
structure Quiet (s t : State) : Prop where
  claims : t.claims = s.claims := by rfl
  doors : ∀ c op ms, (t.cabinet.compartments.get c).door = .unlocked op ms →
    ∃ op' ms', (s.cabinet.compartments.get c).door = .unlocked op' ms' ∧ op'.issuer = op.issuer :=
      by exact fun _ op ms h => ⟨op, ms, h, rfl⟩
  links : ∀ l, (s.links.get l).Kept (t.links.get l) := by exact fun _ h => ⟨h, id⟩
  numbers : (t.register.records.map Record.number).Sublist (s.register.records.map Record.number) := by
    exact List.Sublist.refl _
  nextNumber : t.register.nextNumber = s.register.nextNumber := by rfl
  reservations : t.register.reservations = s.register.reservations := by rfl
  drums : t.chutes.cells.countP Chute.inDrum = s.chutes.cells.countP Chute.inDrum := by rfl
  counter : t.manifest.counter = s.manifest.counter := by rfl
  current : ∀ m, t.manifest.current = some m →
    ∃ m', s.manifest.current = some m' ∧ m.number = m'.number ∧ m.entries.Sublist m'.entries :=
      by exact fun m h => ⟨m, h, rfl, List.Sublist.refl _⟩
  seconds : t.clock.seconds = s.clock.seconds := by rfl
  date : t.clock.date = s.clock.date := by rfl
  cutoff : t.store.params.cutoff = s.store.params.cutoff := by rfl

theorem Quiet.kept {w : Watch} (h : Quiet s t) : Kept w s t := by
  cases w with
  | claims => exact ⟨h.claims, h.doors⟩
  | links => exact h.links
  | register => exact ⟨h.numbers, h.nextNumber, h.reservations, h.drums⟩
  | manifest => exact ⟨h.counter, h.current⟩
  | clock => exact ⟨h.seconds, h.date, h.cutoff⟩

theorem Link.Kept.refl {k : Link} : k.Kept k := fun h => ⟨h, id⟩

theorem Link.Kept.trans {k k' k'' : Link} (h : k.Kept k') (h' : k'.Kept k'') : k.Kept k'' := fun hk =>
  ⟨(h' (h hk).1).1, fun hp => (h' (h hk).1).2 ((h hk).2 hp)⟩

/-- A link whose phase, held results and long command stand is kept. -/
theorem Link.Kept.of_eq {k k' : Link} (hphase : k'.phase = k.phase) (hheld : k'.held = k.held)
    (hlong : k'.long = k.long) : k.Kept k' := by
  unfold Link.Kept Link.PhaseHolds
  rw [hphase, hheld, hlong]
  exact fun h => ⟨h, id⟩

theorem Quiet.refl : Quiet s s where

theorem Kept.trans {w : Watch} (h : Kept w s t) (h' : Kept w t u) : Kept w s u := by
  cases w with
  | claims =>
    refine ⟨h'.1.trans h.1, fun c op ms hu => ?_⟩
    obtain ⟨op', ms', ht, hop'⟩ := h'.2 c op ms hu
    obtain ⟨op'', ms'', hs, hop''⟩ := h.2 c op' ms' ht
    exact ⟨op'', ms'', hs, hop''.trans hop'⟩
  | links => exact fun l => (h l).trans (h' l)
  | register =>
    obtain ⟨hn, hx, hr, hd⟩ := h
    obtain ⟨hn', hx', hr', hd'⟩ := h'
    exact ⟨hn'.trans hn, hx'.trans hx, hr'.trans hr, hd'.trans hd⟩
  | manifest =>
    refine ⟨h'.1.trans h.1, fun m hu => ?_⟩
    obtain ⟨m', ht, hm', hs'⟩ := h'.2 m hu
    obtain ⟨m'', hs, hm'', hs''⟩ := h.2 m' ht
    exact ⟨m'', hs, hm'.trans hm'', hs'.trans hs''⟩
  | clock =>
    obtain ⟨ht, hd, hc⟩ := h
    obtain ⟨ht', hd', hc'⟩ := h'
    exact ⟨ht'.trans ht, hd'.trans hd, hc'.trans hc⟩

/-- A state of which every part is kept is a quiet successor. -/
theorem Quiet.of_kept (h : ∀ w, Kept w s t) : Quiet s t := by
  obtain ⟨hclaims, hdoors⟩ := h .claims
  obtain ⟨hnumbers, hnext, hreservations, hdrums⟩ := h .register
  obtain ⟨hcounter, hcurrent⟩ := h .manifest
  obtain ⟨hseconds, hdate, hcutoff⟩ := h .clock
  exact ⟨hclaims, hdoors, h .links, hnumbers, hnext, hreservations, hdrums, hcounter, hcurrent, hseconds, hdate,
    hcutoff⟩

theorem Quiet.trans (h : Quiet s t) (h' : Quiet t u) : Quiet s u := .of_kept fun _ => h.kept.trans h'.kept

/-- No part but the links depends on the links. -/
theorem Kept.modifyLink {w : Watch} {l : LinkId} {f : Link → Link} (hw : w ≠ .links) (h : Kept w s t) :
    Kept w s (Machine.modifyLink l f t) := by
  cases w with
  | links => exact absurd rfl hw
  | _ => exact h

/-! ## Records and the register -/

theorem modifyRecord_quiet {n : Nat} {f : Record → Record}
    (hf : ∀ r, (f r).number = r.number := by exact fun _ => rfl) : Quiet s (modifyRecord n f s) where
  numbers := by rw [modifyRecord, numbers_modifyIn hf]

/-- A change of the record under a number to a given record with that number. -/
theorem modifyRecord_const_quiet {n : Nat} {r : Record} (hr : r.number = n) :
    Quiet s (modifyRecord n (fun _ => r) s) where
  numbers := by
    simp only [modifyRecord, modifyIn, List.map_map]
    refine (List.map_congr_left fun x _ => ?_) ▸ List.Sublist.refl _
    simp only [Function.comp]
    split
    next hx => rw [hr, hx]
    next => rfl

theorem countUp_quiet {f : DateCounts → DateCounts} : Quiet s (countUp f s) where

theorem modifyDepositor_quiet {d : DepositorId} {f : Depositor → Depositor} : Quiet s (modifyDepositor d f s) where

theorem dropEntry_quiet {n : Nat} : Quiet s (dropEntry n s) := by
  unfold dropEntry
  split
  · exact .refl
  next m hm =>
    exact {
      current := fun m' h => ⟨m, hm, by cases h; rfl, by cases h; exact List.filter_sublist⟩ }

theorem removeRecord_quiet {r : Record} : Quiet s (removeRecord s r) where
  numbers := List.filter_sublist.map _

/-! ## Links and notices -/

theorem modifyLink_quiet {l : LinkId} {f : Link → Link} (h : (s.links.get l).Kept (f (s.links.get l))) :
    Quiet s (modifyLink l f s) where
  links i := by
    by_cases hi : i = l
    · subst hi; rw [modifyLink_get_self]; exact h
    · rw [modifyLink_get_ne hi]; exact .refl

/-- A change of a link that its phase, its held results and its long command survive. -/
theorem modifyLink_quiet_of_eq {l : LinkId} {f : Link → Link}
    (hphase : ∀ k, (f k).phase = k.phase := by exact fun _ => rfl)
    (hheld : ∀ k, (f k).held = k.held := by exact fun _ => rfl)
    (hlong : ∀ k, (f k).long = k.long := by exact fun _ => rfl) : Quiet s (modifyLink l f s) :=
  modifyLink_quiet (.of_eq (hphase _) (hheld _) (hlong _))

theorem Link.Traffic.kept {f : Link → Link} (h : Link.Traffic f) (k : Link) : k.Kept (f k) := by
  rw [h k]
  exact .of_eq rfl rfl rfl

theorem raiseTimes_quiet {k : Notice} {m : Nat} : Quiet s (raiseTimes k m s) := by
  rw [raiseTimes_eq]
  exact { links := fun l => by
            show (s.links.get l).Kept ((raiseTimes k m s).links.get l)
            rw [raiseTimes_get]
            exact .of_eq rfl rfl rfl }

theorem raise_quiet {k : Notice} : Quiet s (raise k s) := raiseTimes_quiet

theorem Link.Kept.longEnded {k : Link} {code : CompletionCode} {results : List ResultRecord} :
    k.Kept (k.longEnded code results) := by
  refine fun h => ⟨h.longEnded, fun hp => ?_⟩
  unfold Link.longEnded
  split
  · exact hp
  next c hc =>
    have hdiscard : c.delivery = .discard := by
      unfold Link.PhaseHolds at h
      rw [hp] at h
      exact h.2 c hc
    rw [hdiscard]
    exact hp

theorem endLong_quiet {l : LinkId} {code : CompletionCode} {results : List ResultRecord} :
    Quiet s (endLong l code results s) := modifyLink_quiet .longEnded

theorem endDoorOp_quiet {op : DoorOp} {code : CompletionCode} {results : List ResultRecord} :
    Quiet s (endDoorOp op code results s) := by
  cases op with
  | unattended => exact .refl
  | command l work d => exact endLong_quiet

/-! ## Chutes and the station -/

theorem modifyChute_quiet {c : ChuteId} {f : Chute → Chute} 
    (h : (f (s.chute c)).inDrum = (s.chute c).inDrum := by rfl) : Quiet s (modifyChute c f s) where
  drums := Table.countP_set_of_eq h

theorem setStation_quiet {st : StationState} : Quiet s (setStation st s) where

theorem popQueue_quiet {src : Source} : Quiet s (popQueue src s) := by
  cases src with
  | service => exact {}
  | throat c => exact { drums := Table.countP_set_of_eq rfl }

theorem grant_quiet {src : Source} : Quiet s (grant src s) := by
  unfold grant
  split
  · exact .refl
  · exact popQueue_quiet.trans (.trans modifyRecord_quiet setStation_quiet)

theorem arbitrate_quiet : Quiet s (arbitrate s) := by
  unfold arbitrate
  split
  · split
    · exact grant_quiet
    · exact .refl
  · exact .refl

/-! ## Compartments, doors and places -/

/-- A change of a compartment that does not unlock its door. -/
theorem modifyBox_quiet {c : CompartmentId} {f : Compartment → Compartment}
    (h : ∀ op ms, (f (s.box c)).door = .unlocked op ms →
      ∃ op' ms', (s.box c).door = .unlocked op' ms' ∧ op'.issuer = op.issuer) : Quiet s (modifyBox c f s) where
  doors a op ms := by
    by_cases ha : a = c
    · subst ha
      rw [modifyBox, Table.get_set_self]
      exact h op ms
    · simp only [modifyBox, Table.get_set_ne _ _ ha]
      exact fun h => ⟨op, ms, h, rfl⟩

/-- A change of a compartment that keeps its door. -/
theorem modifyBox_quiet_of_door {c : CompartmentId} {f : Compartment → Compartment}
    (h : (f (s.box c)).door = (s.box c).door) : Quiet s (modifyBox c f s) :=
  modifyBox_quiet fun op ms hd => ⟨op, ms, h ▸ hd, rfl⟩

theorem setDoor_quiet {c : CompartmentId} {d : Door} (h : d.isUnlocked = false) : Quiet s (setDoor c d s) :=
  modifyBox_quiet fun op ms hd => by
    change d = .unlocked op ms at hd
    rw [hd] at h
    cases h

theorem testLowMarks_quiet : Quiet s (testLowMarks s) := by
  have hmarks : Quiet s (withLowMarks s) := {}
  exact hmarks.trans raiseTimes_quiet

theorem placeGranted_quiet {n : Nat} {src : Source} (h : placeGranted n src s = some u) : Quiet s u := by
  obtain ⟨r, c, b, _, _, rfl⟩ := placeGranted_eq h
  exact .trans modifyRecord_quiet setStation_quiet

theorem retry_quiet : Quiet s (retry s) := by
  unfold retry
  split
  next n src _ =>
    cases hp : placeGranted n src s with
    | none => exact .refl
    | some u => exact placeGranted_quiet hp
  · exact .refl

/-- A retry of a blocked allocation and the low marks' test. -/
theorem retested_quiet : Quiet s (testLowMarks (retry s)) := retry_quiet.trans testLowMarks_quiet

/-- The same change made for each member of a list. -/
theorem foldl_quiet {α : Type} {f : State → α → State} (h : ∀ s a, Quiet s (f s a)) (as : List α) (s : State) :
    Quiet s (as.foldl f s) := by
  induction as generalizing s with
  | nil => exact .refl
  | cons a as ih => exact (h s a).trans (ih _)

end Sys2Proof.Machine
end

section
-- One theorem after another: elaborated side by side, the whole text asks for more threads than the check has memory for.
set_option Elab.async false
/-! What each row of the table leaves of what the invariants watch: the owners' answers, then the events. -/

namespace Sys2Proof.Machine

variable {s t u : State} {w : Watch} {l : LinkId}

/-- Every watched part. -/
def allWatched : List Watch := [.claims, .links, .register, .manifest, .clock]

theorem mem_allWatched (w : Watch) : w ∈ allWatched := by cases w <;> decide

/-- What of the watched parts a row may move. -/
def touched : Instr → List Watch
  | .powerUp _ _ => allWatched
  | .resetN _ => allWatched
  | .clockAdvance => [.clock]
  | .setClock _ _ _ _ => [.clock]
  | .setParameter _ _ _ _ => [.clock]
  | .drop _ => [.register]
  | .throatEntryReport _ => [.register]
  | .jamReport _ => [.register]
  | .drumWindowExpiry _ => [.register]
  | .loadTimeout => [.register]
  | .initialiseStore _ _ => [.register]
  | .initialiseStoreComplete => [.register, .manifest, .clock]
  | .cosignWindowExpiry _ => [.claims]
  | .presentLineFall _ => [.claims]
  | .safeState _ _ _ => [.claims]
  | .retain _ _ _ => [.claims]
  | .relinquish _ _ _ => [.claims]
  | .cosign _ _ _ => [.claims]
  | .claim _ _ _ => [.claims]
  | .yieldResource _ _ _ => [.claims]
  | .handOut _ _ _ _ => [.claims]
  | .openDoor _ _ _ => [.claims]
  | .manifestOpen _ _ => [.manifest]
  | .manifestAdd _ _ _ => [.manifest]
  | _ => []

/-! ## Operations that move one watched part -/

theorem Kept.refl : Kept w s s := Quiet.refl.kept

section
variable (hw : w ≠ .claims)
include hw

/-- What writes the claims, the cabinet and what is not watched keeps every other part. -/
theorem Kept.but_claims (hlinks : t.links = s.links := by rfl) (hregister : t.register = s.register := by rfl)
    (hchutes : t.chutes = s.chutes := by rfl) (hmanifest : t.manifest = s.manifest := by rfl)
    (hclock : t.clock = s.clock := by rfl) (hparams : t.store.params = s.store.params := by rfl) : Kept w s t := by
  have hs := Quiet.refl (s := s)
  cases w with
  | claims => exact absurd rfl hw
  | links => exact fun l => hlinks ▸ hs.links l
  | register => rw [Kept, hregister, hchutes]; exact hs.kept (w := .register)
  | manifest => rw [Kept, hmanifest]; exact hs.kept (w := .manifest)
  | clock => rw [Kept, hclock, hparams]; exact hs.kept (w := .clock)

end

section
variable (hclaims : t.claims = s.claims := by rfl)
  (hboxes : t.cabinet.compartments = s.cabinet.compartments := by rfl) (hlinks : t.links = s.links := by rfl)
include hclaims hboxes hlinks

/-- What writes the register, the chutes and what is not watched keeps every other part. -/
theorem Kept.but_register (hw : w ≠ .register) (hmanifest : t.manifest = s.manifest := by rfl)
    (hclock : t.clock = s.clock := by rfl) (hparams : t.store.params = s.store.params := by rfl) : Kept w s t := by
  have hs := Quiet.refl (s := s)
  cases w with
  | claims => rw [Kept, hclaims, hboxes]; exact hs.kept (w := .claims)
  | links => exact fun l => hlinks ▸ hs.links l
  | register => exact absurd rfl hw
  | manifest => rw [Kept, hmanifest]; exact hs.kept (w := .manifest)
  | clock => rw [Kept, hclock, hparams]; exact hs.kept (w := .clock)

variable (hnumbers : t.register.records = s.register.records := by rfl)
  (hnext : t.register.nextNumber = s.register.nextNumber := by rfl)
  (hreservations : t.register.reservations = s.register.reservations := by rfl)
  (hchutes : t.chutes = s.chutes := by rfl)
include hnumbers hnext hreservations hchutes

/-- What writes the manifest and what is not watched keeps every other part. -/
theorem Kept.but_manifest (hw : w ≠ .manifest) (hclock : t.clock = s.clock := by rfl)
    (hparams : t.store.params = s.store.params := by rfl) : Kept w s t := by
  have hs := Quiet.refl (s := s)
  cases w with
  | claims => rw [Kept, hclaims, hboxes]; exact hs.kept (w := .claims)
  | links => exact fun l => hlinks ▸ hs.links l
  | register => rw [Kept, hnumbers, hnext, hreservations, hchutes]; exact hs.kept (w := .register)
  | manifest => exact absurd rfl hw
  | clock => rw [Kept, hclock, hparams]; exact hs.kept (w := .clock)

/-- What writes the clock, the parameters and what is not watched keeps every other part. -/
theorem Kept.but_clock (hw : w ≠ .clock) (hmanifest : t.manifest = s.manifest := by rfl) : Kept w s t := by
  have hs := Quiet.refl (s := s)
  cases w with
  | claims => rw [Kept, hclaims, hboxes]; exact hs.kept (w := .claims)
  | links => exact fun l => hlinks ▸ hs.links l
  | register => rw [Kept, hnumbers, hnext, hreservations, hchutes]; exact hs.kept (w := .register)
  | manifest => rw [Kept, hmanifest]; exact hs.kept (w := .manifest)
  | clock => exact absurd rfl hw

end

section
variable {h : Holder} {r : Fin 9} {c : CompartmentId} {d : Door}

theorem setHolder_kept (hw : w ≠ .claims) : Kept w s (setHolder r h s) := .but_claims hw

theorem setSafe_kept {v : SafeState} (hw : w ≠ .claims) : Kept w s (setSafe v s) := .but_claims hw

theorem setDoor_kept (hw : w ≠ .claims) : Kept w s (setDoor c d s) := .but_claims hw

end

section
variable {c : ChuteId} {d : DepositorId} (hw : w ≠ .register)
include hw

theorem modifyChute_kept {f : Chute → Chute} : Kept w s (modifyChute c f s) := .but_register (hw := hw)

theorem returnReservation_kept : Kept w s (returnReservation s) := .but_register (hw := hw)

theorem createRecord_kept {st : RecordState} : Kept w s (createRecord c d st s) := .but_register (hw := hw)

theorem startTurn_kept : Kept w s (startTurn c d s) := .but_register (hw := hw)

theorem startClearing_kept : Kept w s (startClearing s) := .but_register (hw := hw)

theorem turnEnded_kept {last : Bool} {atEnd going : Indication} : Kept w s (turnEnded c d last atEnd going s) := by
  unfold turnEnded
  split <;> exact modifyChute_kept hw

theorem faultChute_kept {returned : Bool} : Kept w s (faultChute c returned s) := by
  unfold faultChute
  split
  · exact .refl
  · refine Kept.trans ?_ raise_quiet.kept
    split
    · exact (returnReservation_kept hw).trans (modifyChute_kept hw)
    · exact modifyChute_kept hw

end

theorem startManifest_kept (hw : w ≠ .manifest) : Kept w s (startManifest s) := .but_manifest (hw := hw)

theorem setManifest_kept {m : Option Manifest} (hw : w ≠ .manifest) : Kept w s (setManifest m s) :=
  .but_manifest (hw := hw)

theorem setManifest_none_quiet : Quiet s (setManifest none s) where
  current m h := by cases h

theorem setReading_kept {seconds date : Nat} (hw : w ≠ .clock) : Kept w s (setReading seconds date s) := by
  unfold setReading
  dsimp only
  split
  · exact .but_clock (hw := hw)
  · exact Kept.trans (.but_clock (hw := hw)) raise_quiet.kept

theorem writeParameter_kept {n v : Nat} (hw : w ≠ .clock) : Kept w s (writeParameter n v s) := by
  unfold writeParameter
  dsimp only
  split
  · exact Kept.trans (.but_clock (hw := hw)) testLowMarks_quiet.kept
  · exact .but_clock (hw := hw)

/-! ## Doors relocked and resources retained -/

theorem relockDoor_quiet {c : CompartmentId} : Quiet s (relockDoor l s c) := by
  unfold relockDoor
  split
  · split
    · exact (setDoor_quiet rfl).trans endDoorOp_quiet
    · exact .refl
  · exact .refl

theorem toldLost_quiet {r : Fin 9} : Quiet s (toldLost r l s) := by
  unfold toldLost
  split
  · exact foldl_quiet (fun _ _ => relockDoor_quiet) _ _
  · exact .refl

theorem afterRelock_quiet : Quiet s (afterRelock t s) := by
  unfold afterRelock
  split
  · exact retested_quiet
  · exact .refl

theorem retainOne_kept {r : Fin 9} (hw : w ≠ .claims) : Kept w s (retainOne s r) := by
  unfold retainOne
  split
  · exact (setHolder_kept hw).trans toldLost_quiet.kept
  · exact setHolder_kept hw

theorem retainAll_kept {rs : List (Fin 9)} (hw : w ≠ .claims) : Kept w s (retainAll rs s) := by
  have hfold : ∀ s, Kept w s (rs.foldl retainOne s) := by
    induction rs with
    | nil => exact fun s => .refl
    | cons r rs ih => exact fun s => (retainOne_kept hw).trans (ih _)
  exact (hfold s).trans afterRelock_quiet.kept

theorem lockSafe_kept (hw : w ≠ .claims) : Kept w s (lockSafe s) :=
  ((setSafe_kept hw).trans (retainAll_kept hw)).trans raiseTimes_quiet.kept

theorem yieldHeld_kept {r : Fin 9} (hw : w ≠ .claims) : Kept w s (yieldHeld l r s) :=
  ((setHolder_kept hw).trans toldLost_quiet.kept).trans afterRelock_quiet.kept

/-! ## The owners' answers -/

section
variable {n k v a b : Nat} {o p : Option Nat}

theorem ownReadRecord_state : (ownReadRecord n s).state = s := by
  unfold ownReadRecord; repeat' split
  all_goals rfl

theorem ownListRecords_state {f : RecordFilter} : (ownListRecords f s).state = s := by
  unfold ownListRecords; repeat' split
  all_goals rfl

theorem ownReadCompartment_state : (ownReadCompartment o s).state = s := by
  unfold ownReadCompartment; repeat' split
  all_goals rfl

theorem ownReadChute_state : (ownReadChute o s).state = s := by
  unfold ownReadChute; repeat' split
  all_goals rfl

theorem ownReadAdvice_state {byTag : Bool} : (ownReadAdvice byTag v s).state = s := by
  unfold ownReadAdvice; repeat' split
  all_goals rfl

theorem ownReadDepositor_state : (ownReadDepositor o s).state = s := by
  unfold ownReadDepositor; repeat' split
  all_goals rfl

theorem ownReadCounters_state : (ownReadCounters l o s).state = s := by
  unfold ownReadCounters; repeat' split
  all_goals rfl

theorem ownReadNotices_quiet : Quiet s (ownReadNotices l s).state := by
  unfold ownReadNotices
  rw [Answer.state_done]
  exact modifyLink_quiet_of_eq

theorem ownClearLinkCounters_quiet : Quiet s (ownClearLinkCounters l s).state := by
  unfold ownClearLinkCounters
  rw [Answer.state_done]
  exact modifyLink_quiet_of_eq

theorem ownReportStop_quiet : Quiet s (ownReportStop l s).state := by
  unfold ownReportStop
  rw [Answer.state_done]
  exact modifyLink_quiet_of_eq

theorem ownNoticeEnable_quiet : Quiet s (ownNoticeEnable l k s).state := by
  unfold ownNoticeEnable
  split
  · exact .refl
  · rw [Answer.state_done]
    exact modifyLink_quiet_of_eq

theorem ownSetForcedError_quiet : Quiet s (ownSetForcedError l n s).state := by
  unfold ownSetForcedError
  split
  · exact .refl
  · rw [Answer.state_done]
    exact modifyLink_quiet_of_eq

theorem ownReportProgram_quiet {sources : List Nat} : Quiet s (ownReportProgram l k n sources s).state := by
  unfold ownReportProgram
  split
  · exact .refl
  · split
    · exact .refl
    · rw [Answer.state_done]
      exact modifyLink_quiet_of_eq

theorem ownSetWindow_quiet {fields : Option WindowArgs} : Quiet s (ownSetWindow k n fields s).state := by
  unfold ownSetWindow; repeat' split
  all_goals exact {}

theorem ownCancelAdvice_quiet : Quiet s (ownCancelAdvice n s).state := by
  unfold ownCancelAdvice; repeat' split
  all_goals exact {}

theorem ownSetDepositor_quiet {fields : DepositorArgs} : Quiet s (ownSetDepositor n fields s).state := by
  unfold ownSetDepositor; dsimp only; repeat' split
  all_goals exact {}

theorem ownRemoveDepositor_quiet : Quiet s (ownRemoveDepositor n s).state := by
  unfold ownRemoveDepositor; repeat' split
  all_goals exact {}

theorem ownSetRule_quiet {fields : RuleArgs} : Quiet s (ownSetRule n fields s).state := by
  unfold ownSetRule; repeat' split
  all_goals exact {}

theorem ownPurge_quiet : Quiet s (ownPurge n s).state := by
  unfold ownPurge; split
  all_goals exact {}

theorem ownIntakeOpenAll_quiet : Quiet s (ownIntakeOpenAll s).state := by
  unfold ownIntakeOpenAll; split
  all_goals exact {}

/-- R48: a chute that closes stays in DRUM if it was, and does not enter it. -/
theorem Chute.closing_inDrum {k : Chute} : k.closing.inDrum = k.inDrum := by
  unfold Chute.closing Chute.inDrum
  cases h : k.state <;> simp [Chute.shownClosed, Chute.entered, h]

theorem ownIntakeMask_quiet : Quiet s (ownIntakeMask n s).state := by
  unfold ownIntakeMask maskChute
  split
  · exact .refl
  · split
    · exact .refl
    · dsimp only [Answer.state_done]
      split
      · exact .refl
      · exact modifyChute_quiet Chute.closing_inDrum

theorem ownIntakeUnmask_quiet : Quiet s (ownIntakeUnmask n s).state := by
  unfold ownIntakeUnmask
  split
  · exact .refl
  · split
    · exact .refl
    · rw [Answer.state_done]
      exact modifyChute_quiet

theorem ownIntakeCloseAll_quiet : Quiet s (ownIntakeCloseAll s).state := by
  unfold ownIntakeCloseAll closeIntake
  split
  · exact .refl
  · dsimp only [Answer.state_done]
    split
    · exact .refl
    · exact { drums := Table.countP_map_of_eq fun _ => Chute.closing_inDrum }

theorem ownClearChute_quiet : Quiet s (ownClearChute l n s).state := by
  unfold ownClearChute
  split
  · exact .refl
  next c _ =>
    repeat' split
    · exact .refl
    · exact .refl
    · exact .refl
    next hfault =>
      rw [not_not] at hfault
      have hfold := foldl_quiet (f := fun s n => modifyRecord n Record.stranded s) (fun s n => modifyRecord_quiet)
        (s.chute c).queue s
      have hchute : ((s.chute c).queue.foldl (fun s n => modifyRecord n Record.stranded s) s).chute c = s.chute c := by
        rw [foldl_modifyRecord (f := Record.stranded) (fun _ => rfl) (fun _ => rfl)]
        rfl
      refine hfold.trans ((modifyChute_quiet ?_).trans raiseTimes_quiet)
      rw [hchute, Chute.inDrum, Chute.inDrum, hfault]

theorem ownClearReason_quiet : Quiet s (ownClearReason n k s).state := by
  unfold ownClearReason; repeat' split
  · exact .refl
  · exact .refl
  · exact .refl
  · exact .refl
  · exact .refl
  · exact .refl
  · exact modifyRecord_quiet

theorem ownVoid_quiet : Quiet s (ownVoid n s).state := by
  unfold ownVoid; repeat' split
  · exact .refl
  · exact .refl
  · exact .refl
  · exact modifyRecord_quiet

theorem ownReEnter_quiet : Quiet s (ownReEnter l n s).state := by
  have hservice : Quiet s { s with station := { s.station with service := s.station.service ++ [n] } } := {}
  unfold ownReEnter; repeat' split
  · exact .refl
  · exact .refl
  · exact .refl
  · exact .refl
  · exact .refl
  · exact .refl
  · exact hservice.trans (.trans modifyRecord_quiet arbitrate_quiet)

theorem strandBlocked_quiet : Quiet s (strandBlocked n s) :=
  setStation_quiet.trans (.trans modifyRecord_quiet raise_quiet)

theorem ownClearStation_quiet : Quiet s (ownClearStation l s).state := by
  unfold ownClearStation; repeat' split
  · exact .refl
  · exact .refl
  · exact strandBlocked_quiet.trans arbitrate_quiet
  · exact setStation_quiet.trans arbitrate_quiet
  · exact .refl

theorem applyCount_quiet {r : Record} : Quiet s (applyCount r a b s) :=
  .trans modifyRecord_quiet (countUp_quiet.trans (modifyDepositor_quiet.trans raiseTimes_quiet))

theorem ownCountResult_quiet : Quiet s (ownCountResult n a b s).state := by
  unfold ownCountResult; repeat' split
  · exact .refl
  · exact .refl
  · exact .refl
  · exact .refl
  · exact .refl
  · exact applyCount_quiet

theorem ownManifestDrop_quiet : Quiet s (ownManifestDrop n s).state := by
  unfold ownManifestDrop; repeat' split
  · exact .refl
  · exact .refl
  · exact .refl
  · exact .refl
  · exact .refl
  · exact dropEntry_quiet

theorem dispatch_quiet : Quiet s (dispatch k s n) := .trans modifyRecord_quiet countUp_quiet

theorem ownManifestClose_quiet : Quiet s (ownManifestClose s).state := by
  unfold ownManifestClose; repeat' split
  · exact .refl
  · exact .refl
  · exact (foldl_quiet (fun _ _ => dispatch_quiet) _ _).trans setManifest_none_quiet
  · exact .refl

theorem ownManifestAbandon_quiet : Quiet s (ownManifestAbandon s).state := by
  unfold ownManifestAbandon; repeat' split
  · exact .refl
  · exact .refl
  · exact setManifest_none_quiet
  · exact .refl

theorem enterAdvice_quiet {x : Advice} : Quiet s (enterAdvice x s) := by
  unfold enterAdvice
  split
  · exact {}
  next r _ =>
    have hentries : Quiet s
        { s with
          advices := { s.advices with entries := s.advices.entries ++ [{ x with matched := some r.number }] } } := {}
    exact hentries.trans modifyRecord_quiet

theorem loadOne_quiet {x : AdviceArgs} : Quiet s (loadOne n x s).1 := by
  unfold loadOne; repeat' split
  · exact .refl
  · exact .refl
  · exact .refl
  · exact enterAdvice_quiet
  · exact .refl

theorem loadFrom_quiet {xs : List AdviceArgs} : Quiet s (loadFrom n xs s).1 := by
  induction xs generalizing n s with
  | nil => exact .refl
  | cons x xs ih => exact loadOne_quiet.trans ih

theorem ownLoadAdvice_quiet {xs : List AdviceArgs} : Quiet s (ownLoadAdvice xs s).state := by
  unfold ownLoadAdvice
  split
  · exact .refl
  · exact loadFrom_quiet

theorem Compartment.configured_door {x : BoxClass} {service : Bool} {box : Compartment} :
    (box.configured x service).door = box.door := by
  unfold Compartment.configured
  split <;> rfl

theorem configureBox_quiet {c : CompartmentId} {x : BoxClass} {service : Bool} :
    Quiet s (configureBox c x service s) := by
  have hbox : Quiet s (modifyBox c (Compartment.configured x service) s) :=
    modifyBox_quiet_of_door Compartment.configured_door
  refine hbox.trans ?_
  unfold configureBox
  dsimp only
  split
  · exact retested_quiet
  · exact testLowMarks_quiet

theorem ownSetCompartment_quiet : Quiet s (ownSetCompartment n k v s).state := by
  unfold ownSetCompartment
  repeat' split
  · exact .refl
  · exact .refl
  · rw [Answer.state_done]
    exact configureBox_quiet
  · exact .refl

theorem withReserve_quiet {x : BoxClass} : Quiet s (withReserve x n s) := by
  cases x <;> exact {}

theorem ownSetReserve_quiet : Quiet s (ownSetReserve k n s).state := by
  unfold ownSetReserve reserve
  repeat' split
  · exact .refl
  · exact .refl
  · exact .refl
  · rw [Answer.state_done]
    exact withReserve_quiet.trans retested_quiet
  · rw [Answer.state_done]
    exact withReserve_quiet.trans testLowMarks_quiet

theorem detect_quiet {g : Gate} {c : CompartmentId} {affected : List Nat} : Quiet s (detect l g c affected s) := by
  unfold detect
  split
  · exact (foldl_quiet (fun _ _ => modifyRecord_quiet) _ _).trans raise_quiet
  · exact .refl

/-- R147: a door command is refused with its state kept, or accepted. -/
theorem doorCommand_kept {g : Gate} {access listOk : Bool} {accept : CompartmentId → Answer}
    (h : ∀ c, (s.box c).door = .locked → Kept w s (accept c).state) :
    Kept w s (doorCommand l g access n listOk accept s).state := by
  unfold doorCommand; repeat' split
  · exact .refl
  · exact .refl
  · exact .refl
  · exact raise_quiet.kept
  · exact .refl
  · exact .refl
  · exact .refl
  next hlocked => exact h _ (not_not.mp hlocked)

theorem ownInventory_kept : Kept w s (ownInventory l n s).state :=
  doorCommand_kept fun _ _ => detect_quiet.kept.trans (setDoor_quiet rfl).kept

theorem ownOpenDoor_kept (hw : w ≠ .claims) : Kept w s (ownOpenDoor l n s).state :=
  doorCommand_kept fun _ _ => detect_quiet.kept.trans (setDoor_kept hw)

theorem acceptHandOut_kept {named : List Nat} {c : CompartmentId} (hw : w ≠ .claims) :
    Kept w s (acceptHandOut l named s c).state := by
  unfold acceptHandOut
  split
  · exact .refl
  · exact detect_quiet.kept.trans (setDoor_kept hw)

theorem ownHandOut_kept {named : List Nat} (hw : w ≠ .claims) : Kept w s (ownHandOut l n named s).state :=
  doorCommand_kept fun _ _ => acceptHandOut_kept hw

theorem ownSafeState_kept (hw : w ≠ .claims) : Kept w s (ownSafeState v s).state := by
  unfold ownSafeState
  split
  · exact .refl
  · exact setSafe_kept hw
  · dsimp only [withSummary_state]
    split
    · exact .refl
    · exact lockSafe_kept hw

theorem ownRetain_kept (hw : w ≠ .claims) : Kept w s (ownRetain o s).state := by
  unfold ownRetain; repeat' split
  · exact retainAll_kept hw
  · exact .refl
  · exact retainAll_kept hw

theorem ownRelinquish_kept (hw : w ≠ .claims) : Kept w s (ownRelinquish n s).state := by
  unfold ownRelinquish; repeat' split
  · exact .refl
  · exact .refl
  · exact .refl
  · exact setHolder_kept hw

theorem ownClaim_kept (hw : w ≠ .claims) : Kept w s (ownClaim l n s).state := by
  unfold ownClaim; repeat' split
  · exact .refl
  · exact .refl
  · exact setHolder_kept hw
  · exact .refl
  · exact .refl
  · exact .refl
  · exact .refl

theorem ownCosign_kept (hw : w ≠ .claims) : Kept w s (ownCosign l n s).state := by
  unfold ownCosign; repeat' split
  · exact .refl
  · exact .refl
  · exact setHolder_kept hw
  · exact .refl

theorem ownYield_kept (hw : w ≠ .claims) : Kept w s (ownYield l n s).state := by
  unfold ownYield; repeat' split
  · exact .refl
  · exact yieldHeld_kept hw
  · exact .refl
  · exact setHolder_kept hw
  · exact .refl
  · exact .refl

theorem ownSetClock_kept (hw : w ≠ .clock) : Kept w s (ownSetClock o p s).state := by
  unfold ownSetClock; repeat' split
  · exact .refl
  · exact .refl
  · exact setReading_kept hw
  · exact .refl
  · exact .refl

theorem ownSetParameter_kept (hw : w ≠ .clock) : Kept w s (ownSetParameter l o p s).state := by
  unfold ownSetParameter; repeat' split
  · exact .refl
  · exact .refl
  · exact .refl
  · exact writeParameter_kept hw
  · exact .refl
  · exact .refl

theorem ownInitialiseStore_kept (hw : w ≠ .register) : Kept w s (ownInitialiseStore s).state := by
  unfold ownInitialiseStore
  split
  · exact .refl
  · exact startClearing_kept hw

theorem ownManifestOpen_kept (hw : w ≠ .manifest) : Kept w s (ownManifestOpen s).state := by
  unfold ownManifestOpen; repeat' split
  · exact .refl
  · exact .refl
  · exact startManifest_kept hw

theorem ownManifestAdd_kept (hw : w ≠ .manifest) : Kept w s (ownManifestAdd n s).state := by
  unfold ownManifestAdd; repeat' split
  · exact .refl
  · exact .refl
  · exact .refl
  · exact .refl
  · exact .refl
  · exact .refl
  · exact .refl
  · exact setManifest_kept hw

/-- A command row leaves what it is not named to move. -/
theorem owner_kept (i : Instr) (hw : w ∉ touched i) : Kept w s (ownerOf i s).state := by
  cases i
  case readRecord => exact ownReadRecord_state ▸ .refl
  case listRecords => exact ownListRecords_state ▸ .refl
  case readCompartment => exact ownReadCompartment_state ▸ .refl
  case readChute => exact ownReadChute_state ▸ .refl
  case readAdvice => exact ownReadAdvice_state ▸ .refl
  case readDepositor => exact ownReadDepositor_state ▸ .refl
  case readCounters => exact ownReadCounters_state ▸ .refl
  case readNotices => exact ownReadNotices_quiet.kept
  case clearLinkCounters => exact ownClearLinkCounters_quiet.kept
  case noticeEnable => exact ownNoticeEnable_quiet.kept
  case reportProgram => exact ownReportProgram_quiet.kept
  case reportStop => exact ownReportStop_quiet.kept
  case setForcedError => exact ownSetForcedError_quiet.kept
  case setClock => exact ownSetClock_kept (List.ne_of_not_mem_cons hw)
  case safeState => exact ownSafeState_kept (List.ne_of_not_mem_cons hw)
  case retain => exact ownRetain_kept (List.ne_of_not_mem_cons hw)
  case relinquish => exact ownRelinquish_kept (List.ne_of_not_mem_cons hw)
  case setWindow => exact ownSetWindow_quiet.kept
  case initialiseStore => exact ownInitialiseStore_kept (List.ne_of_not_mem_cons hw)
  case setParameter => exact ownSetParameter_kept (List.ne_of_not_mem_cons hw)
  case cosign => exact ownCosign_kept (List.ne_of_not_mem_cons hw)
  case claim => exact ownClaim_kept (List.ne_of_not_mem_cons hw)
  case yieldResource => exact ownYield_kept (List.ne_of_not_mem_cons hw)
  case handOut => exact ownHandOut_kept (List.ne_of_not_mem_cons hw)
  case openDoor => exact ownOpenDoor_kept (List.ne_of_not_mem_cons hw)
  case inventory => exact ownInventory_kept
  case loadAdvice => exact ownLoadAdvice_quiet.kept
  case cancelAdvice => exact ownCancelAdvice_quiet.kept
  case setDepositor => exact ownSetDepositor_quiet.kept
  case removeDepositor => exact ownRemoveDepositor_quiet.kept
  case setCompartment => exact ownSetCompartment_quiet.kept
  case setReserve => exact ownSetReserve_quiet.kept
  case setRule => exact ownSetRule_quiet.kept
  case intakeMask => exact ownIntakeMask_quiet.kept
  case intakeUnmask => exact ownIntakeUnmask_quiet.kept
  case intakeCloseAll => exact ownIntakeCloseAll_quiet.kept
  case intakeOpenAll => exact ownIntakeOpenAll_quiet.kept
  case clearReason => exact ownClearReason_quiet.kept
  case voidRecord => exact ownVoid_quiet.kept
  case purge => exact ownPurge_quiet.kept
  case reEnter => exact ownReEnter_quiet.kept
  case clearStation => exact ownClearStation_quiet.kept
  case clearChute => exact ownClearChute_quiet.kept
  case countResult => exact ownCountResult_quiet.kept
  case manifestOpen => exact ownManifestOpen_kept (List.ne_of_not_mem_cons hw)
  case manifestAdd => exact ownManifestAdd_kept (List.ne_of_not_mem_cons hw)
  case manifestDrop => exact ownManifestDrop_quiet.kept
  case manifestClose => exact ownManifestClose_quiet.kept
  case manifestAbandon => exact ownManifestAbandon_quiet.kept
  all_goals exact .refl

end

end Sys2Proof.Machine
end

section
-- One theorem after another: elaborated side by side, the whole text asks for more threads than the check has memory for.
set_option Elab.async false
/-! What each event leaves of what the invariants watch. -/

namespace Sys2Proof.Machine

variable {s t u : State} {w : Watch} {l : LinkId}

/-! ## Chute events -/

section
variable {c : ChuteId} {n : Nat}

theorem refuseCredential_quiet {i : Indication} : Quiet s (refuseCredential c i s) := by
  have hshown : Quiet s (modifyChute c (Chute.showing i) s) := modifyChute_quiet
  unfold refuseCredential countRefused
  split
  · exact hshown.trans countUp_quiet
  · exact hshown

theorem presentCredential_quiet : Quiet s (presentCredential c n s) := by
  unfold presentCredential
  split
  next hidle =>
    repeat' split
    · exact refuseCredential_quiet
    · exact refuseCredential_quiet
    · refine modifyChute_quiet ?_
      rw [Chute.inDrum, Chute.inDrum, hidle]
      rfl
  · exact refuseCredential_quiet

theorem pressEnd_quiet : Quiet s (pressEnd c s) := by
  unfold pressEnd
  split
  next h => exact modifyChute_quiet (by rw [Chute.inDrum, Chute.inDrum, h]; rfl)
  next h => exact modifyChute_quiet (by rw [Chute.inDrum, Chute.inDrum, h])
  · exact .refl

theorem expireIdle_quiet : Quiet s (expireIdle c s) := by
  unfold expireIdle
  split
  next h => exact modifyChute_quiet (by rw [Chute.inDrum, Chute.inDrum, h]; rfl)
  · exact .refl

variable (hw : w ≠ .register)
include hw

theorem pressDrop_kept : Kept w s (pressDrop c s) := by
  unfold pressDrop
  repeat' split
  · exact modifyChute_kept hw
  · exact modifyChute_kept hw
  · exact modifyChute_kept hw
  · exact startTurn_kept hw
  · exact .refl

theorem throatEntry_kept : Kept w s (throatEntry c s) := by
  unfold throatEntry
  split
  · exact (((createRecord_kept hw).trans (modifyChute_kept hw)).trans (turnEnded_kept hw)).trans arbitrate_quiet.kept
  · exact faultChute_kept hw

theorem jam_kept : Kept w s (jam c s) := by
  unfold jam
  split
  · exact ((createRecord_kept hw).trans (faultChute_kept hw)).trans raise_quiet.kept
  · exact faultChute_kept hw

theorem expireDrum_kept : Kept w s (expireDrum c s) := by
  unfold expireDrum
  split
  · exact (returnReservation_kept hw).trans (turnEnded_kept hw)
  · exact .refl

end

/-! ## Station events -/

section
variable {n : Nat} {src : Source}

theorem completeLoad_quiet : Quiet s (completeLoad s) := by
  unfold completeLoad
  split
  · exact setStation_quiet
  · exact .refl

theorem faultSource_kept (hw : w ≠ .register) : Kept w s (faultSource src s) := by
  cases src with
  | service => exact .refl
  | throat c => exact faultChute_kept hw

theorem failLoad_kept (hw : w ≠ .register) : Kept w s (failLoad s) := by
  unfold failLoad
  split
  next n src _ _ =>
    have hstranded : Quiet s (raise .stranded (modifyRecord n Record.stranded (setStation .idle s))) :=
      setStation_quiet.trans (.trans modifyRecord_quiet raise_quiet)
    exact (hstranded.kept.trans (faultSource_kept hw)).trans arbitrate_quiet.kept
  · exact .refl

theorem requestPlace_quiet : Quiet s (requestPlace n src s) := by
  unfold requestPlace
  split
  next hp => exact (placeGranted_quiet hp).trans testLowMarks_quiet
  · exact setStation_quiet.trans raise_quiet

theorem assessed_quiet {weight : Nat} {res : ReadResult} : Quiet s (assessed n weight res s) := by
  cases hr : s.find n with
  | none => simp only [assessed, hr]; exact .refl
  | some r =>
    rw [assessed_eq hr]
    have htable : Quiet s { s with advices := tableAfter s n (tagTests s r res) } := {}
    have hnumber : r.number = n := RecordAt.number (s := s) hr
    exact htable.trans (modifyRecord_const_quiet hnumber)

theorem evaluateIfReady_quiet : Quiet s (evaluateIfReady s) := by
  unfold evaluateIfReady
  repeat' split
  · exact assessed_quiet.trans requestPlace_quiet
  all_goals exact .refl

theorem latchWeight_quiet {scale : Nat} : Quiet s (latchWeight scale s) := by
  unfold latchWeight
  repeat' split
  · exact setStation_quiet.trans evaluateIfReady_quiet
  all_goals exact .refl

theorem endAttempt_quiet {report : ReadReport} : Quiet s (endAttempt report s) := by
  unfold endAttempt
  repeat' split
  · exact setStation_quiet.trans evaluateIfReady_quiet
  all_goals exact .refl

end

/-! ## Arrivals -/

section
variable {c : CompartmentId} {r : Record} {tag : Option Nat}

theorem restartScan_quiet : Quiet s (restartScan c s) := by
  unfold restartScan
  split
  · exact setDoor_quiet rfl
  · exact .refl

theorem transitDone_quiet : Quiet s (transitDone s) :=
  setStation_quiet.trans (testLowMarks_quiet.trans arbitrate_quiet)

theorem bagStored_quiet : Quiet s (bagStored s) := by
  rw [bagStored_eq]
  refine { links := fun l => ?_ }
  rw [Table.get_map]
  refine .of_eq ?_ ?_ ?_
  all_goals unfold Link.bagCounted; repeat' split
  all_goals rfl

theorem joinBox_quiet {n : Nat} : Quiet s (joinBox c n s) := modifyBox_quiet_of_door rfl

theorem leaveBox_quiet {n : Nat} : Quiet s (leaveBox c n s) := modifyBox_quiet_of_door rfl

theorem joinStored_quiet : Quiet s (joinStored c r s) := modifyBox_quiet_of_door rfl

theorem arriveStored_quiet : Quiet s (arriveStored c r s) :=
  joinStored_quiet.trans (.trans modifyRecord_quiet (countUp_quiet.trans (transitDone_quiet.trans bagStored_quiet)))

theorem arriveHeld_quiet : Quiet s (arriveHeld c r s) :=
  joinBox_quiet.trans (.trans modifyRecord_quiet (countUp_quiet.trans (raise_quiet.trans transitDone_quiet)))

theorem misroute_quiet : Quiet s (misroute c r s) :=
  joinBox_quiet.trans (.trans modifyRecord_quiet (countUp_quiet.trans (raise_quiet.trans transitDone_quiet)))

theorem Compartment.foreignEntry_door {b : Compartment} : (b.foreignEntry tag).door = b.door := by
  unfold Compartment.foreignEntry
  repeat' split
  all_goals rfl

theorem judgeEntry_quiet : Quiet s (judgeEntry c tag s) := by
  unfold judgeEntry
  repeat' split
  · exact .refl
  · exact arriveStored_quiet
  · exact arriveHeld_quiet
  · exact misroute_quiet
  · exact (modifyBox_quiet_of_door Compartment.foreignEntry_door).trans raise_quiet

theorem failTransit_quiet : Quiet s (failTransit s) := by
  unfold failTransit
  split
  · exact setStation_quiet.trans
      (.trans modifyRecord_quiet (raise_quiet.trans (raise_quiet.trans testLowMarks_quiet)))
  · exact .refl

end

/-! ## Doors and scans -/

section
variable {c : CompartmentId}

theorem openedDoor_quiet : Quiet s (openedDoor c s) := by
  unfold openedDoor
  split
  · exact setDoor_quiet rfl
  · exact (setDoor_quiet rfl).trans raise_quiet
  · exact (setDoor_quiet rfl).trans raise_quiet
  · exact .refl

theorem closedDoor_quiet : Quiet s (closedDoor c s) := by
  unfold closedDoor
  split
  · exact (setDoor_quiet rfl).trans retested_quiet
  · exact .refl

theorem expireUnlock_quiet : Quiet s (expireUnlock c s) := by
  unfold expireUnlock
  split
  · exact (setDoor_quiet rfl).trans (endDoorOp_quiet.trans retested_quiet)
  · exact .refl

theorem expireLeftOpen_quiet : Quiet s (expireLeftOpen c s) := by
  unfold expireLeftOpen
  split
  · exact (setDoor_quiet rfl).trans raise_quiet
  · exact .refl

theorem afterDeparture_quiet {n : Nat} {st : RecordState} : Quiet s (afterDeparture n st s) := by
  unfold afterDeparture
  split
  · exact dropEntry_quiet.trans raise_quiet
  · exact countUp_quiet.trans dropEntry_quiet
  · exact .refl

theorem depart_quiet {d : Nat × RecordState} : Quiet s (depart c s d) :=
  leaveBox_quiet.trans (.trans modifyRecord_quiet afterDeparture_quiet)

theorem recover_quiet {r : Record} : Quiet s (recover c r s) := by
  have hold : Quiet s (leaveOld r s) := by
    unfold leaveOld
    split
    · exact leaveBox_quiet
    · exact .refl
  exact hold.trans (dropEntry_quiet.trans (joinBox_quiet.trans (.trans modifyRecord_quiet raise_quiet)))

theorem recoverTags_quiet {tags : List Nat} : Quiet s (recoverTags c tags s).1 := by
  induction tags generalizing s with
  | nil => exact .refl
  | cons g gs ih =>
    unfold recoverTags
    split
    · exact recover_quiet.trans ih
    · exact ih

theorem reconcile_quiet {op : DoorOp} {tags : List Nat} : Quiet s (reconcile c op tags s).1 := by
  have hgone : Quiet s ((departures s op tags (s.box c).occupants).foldl (depart c) s) :=
    foldl_quiet (fun _ _ => depart_quiet) _ _
  refine hgone.trans (recoverTags_quiet.trans (Quiet.trans (modifyBox_quiet_of_door ?_) raiseTimes_quiet))
  rfl

theorem finishScan_quiet {tags : List Nat} : Quiet s (finishScan c tags s) := by
  unfold finishScan
  split
  · exact reconcile_quiet.trans ((setDoor_quiet rfl).trans (endDoorOp_quiet.trans retested_quiet))
  · exact .refl

end

/-! ## Claims, the purge walk and the links -/

theorem lapse_kept {b : Fin 4} (hw : w ≠ .claims) : Kept w s (lapse b s) := by
  unfold lapse
  split
  · exact (setHolder_kept hw).trans raise_quiet.kept
  · exact .refl

theorem visitRecord_quiet {date : Nat} {r : Record} : Quiet s (visitRecord date s r) := by
  unfold visitRecord
  split
  · exact removeRecord_quiet
  · exact .refl

theorem walkOn_quiet : Quiet s (walkOn s) := by
  unfold walkOn
  split
  · exact .refl
  next x _ =>
    split
    · exact .refl
    next r _ _ =>
      have hwalk : ∀ u : State, Quiet u { u with register := { u.register with walk := some ⟨x.date, r.number⟩ } } :=
        fun _ => {}
      exact visitRecord_quiet.trans (hwalk _)

theorem endWalk_quiet : Quiet s (endWalk s) := by
  unfold endWalk
  split
  · exact .refl
  next x _ =>
    have hwalk : ∀ u : State, Quiet u { u with register := { u.register with walk := none } } := fun _ => {}
    exact (foldl_quiet (fun _ _ => visitRecord_quiet) _ _).trans ((hwalk _).trans endLong_quiet)

theorem setCadence_quiet {k : Cadence} : Quiet s (setCadence l k s) := modifyLink_quiet_of_eq

theorem reportDue_quiet : Quiet s (reportDue l s) := by
  unfold reportDue
  split
  · exact .refl
  · split
    · exact modifyLink_quiet_of_eq
    · exact .refl

theorem expireReport_quiet : Quiet s (expireReport l s) := by
  unfold expireReport
  split
  · exact setCadence_quiet.trans reportDue_quiet
  · exact .refl

theorem Link.sends_kept {k : Link} : k.Kept k.sends := by
  unfold Link.sends
  split
  · exact .refl
  · dsimp only
    split
    · exact .of_eq rfl rfl rfl
    · exact .of_eq rfl rfl rfl

theorem Link.lineRisen_kept {k : Link} : k.Kept k.lineRisen := by
  unfold Link.lineRisen
  split
  · exact .of_eq rfl rfl rfl
  · exact .refl

theorem Link.risen_kept {k : Link} : k.Kept k.risen := by
  unfold Link.risen
  split
  · exact .refl
  · exact .of_eq rfl rfl rfl

theorem Link.faulted_kept {f : CharFault} {k : Link} : k.Kept (k.faulted f) := by
  unfold Link.faulted
  split
  · split
    · exact .of_eq rfl rfl rfl
    · exact .refl
  · exact .refl

/-- R196: a dropped link is READY, holds nothing, and its long command has delivery DISCARD. -/
theorem Link.dropped_kept {k : Link} : k.Kept k.dropped := by
  refine fun _ => ⟨⟨rfl, fun c hc => ?_⟩, fun _ => rfl⟩
  obtain ⟨c', _, rfl⟩ := Option.map_eq_some_iff.mp hc
  rfl

theorem DoorOp.discarded_issuer {op : DoorOp} : (op.discarded l).issuer = op.issuer := by
  cases op <;> rfl

theorem Door.discarded_eq_unlocked {d : Door} {op : DoorOp} {ms : Nat} (h : d.discarded l = .unlocked op ms) :
    ∃ op', d = .unlocked op' ms ∧ op'.issuer = op.issuer := by
  cases d <;> cases h
  exact ⟨_, rfl, DoorOp.discarded_issuer.symm⟩

theorem discardDoors_quiet : Quiet s (discardDoors l s) where
  doors c op ms h := by
    simp only [discardDoors, Table.get_map] at h
    obtain ⟨op', hd, hop⟩ := Door.discarded_eq_unlocked h
    exact ⟨op', ms, hd, hop⟩

theorem dropWork_quiet : Quiet s (dropWork l s) := (modifyLink_quiet Link.dropped_kept).trans discardDoors_quiet

theorem breakLine_quiet : Quiet s (breakLine l s) := by
  unfold breakLine
  split
  · exact dropWork_quiet.trans modifyLink_quiet_of_eq
  · exact .refl

theorem fallLine_kept (hw : w ≠ .claims) : Kept w s (fallLine l s) :=
  (dropWork_quiet.trans modifyLink_quiet_of_eq).kept.trans (retainAll_kept hw)

/-! ## The clock, the store and the tick -/

theorem advance_kept (hw : w ≠ .clock) : Kept w s (advance s) := by
  unfold advance
  dsimp only
  split
  · exact Kept.trans (.but_clock (hw := hw)) raise_quiet.kept
  · exact .but_clock (hw := hw)

theorem cleared_kept (hw : w ≠ .register ∧ w ≠ .manifest ∧ w ≠ .clock) : Kept w s (cleared s) := by
  obtain ⟨hregister, hmanifest, hclock⟩ := hw
  cases w with
  | claims =>
    refine ⟨rfl, fun c op ms h => ⟨op, ms, ?_, rfl⟩⟩
    simpa only [cleared, Table.get_tabulate, State.box] using h
  | links => exact fun _ => .refl
  | register => exact absurd rfl hregister
  | manifest => exact absurd rfl hmanifest
  | clock => exact absurd rfl hclock

theorem endClearing_kept (hw : w ≠ .register ∧ w ≠ .manifest ∧ w ≠ .clock) : Kept w s (endClearing s) := by
  unfold endClearing
  split
  · exact .refl
  · rw [withLowMarks_cleared]
    exact ((cleared_kept hw).trans raise_quiet.kept).trans endLong_quiet.kept

theorem Chute.ticked_inDrum {k : Chute} : k.ticked.inDrum = k.inDrum := by
  unfold Chute.ticked Chute.inDrum
  cases k.state <;> rfl

theorem Door.ticked_eq_unlocked {d : Door} {op : DoorOp} {ms : Nat} (h : d.ticked = .unlocked op ms) :
    ∃ ms', d = .unlocked op ms' := by
  cases d <;> cases h
  exact ⟨_, rfl⟩

/-- A tick moves the time of the claims and nothing else that is watched. -/
theorem timersOn_kept (hw : w ≠ .claims) : Kept w s (timersOn s) := by
  cases w with
  | claims => exact absurd rfl hw
  | links => exact fun l => by simp only [timersOn, Table.get_map]; exact .of_eq rfl rfl rfl
  | register => exact ⟨List.Sublist.refl _, rfl, rfl, Table.countP_map_of_eq fun _ => Chute.ticked_inDrum⟩
  | manifest => exact ⟨rfl, fun m h => ⟨m, h, rfl, List.Sublist.refl _⟩⟩
  | clock => exact ⟨rfl, rfl, rfl⟩

theorem tick_kept (hw : w ≠ .claims) : Kept w s (tick s) := (timersOn_kept hw).trans walkOn_quiet.kept

/-! ## Every row -/

/-- An event leaves what it is not named to move. -/
theorem event_kept {i : Instr} (hi : commandOf i = none) (hf : ∀ l chars, i ≠ .frameReceived l chars)
    (hw : w ∉ touched i) (h : exec i s = .next t) : Kept w s t := by
  cases i <;> cases hi
  case frameReceived l chars => exact absurd rfl (hf l chars)
  all_goals cases h
  case powerUp => exact absurd (mem_allWatched w) hw
  case resetN => exact absurd (mem_allWatched w) hw
  case clockAdvance => exact advance_kept (List.ne_of_not_mem_cons hw)
  case credentialPresented => exact presentCredential_quiet.kept
  case drop => exact pressDrop_kept (List.ne_of_not_mem_cons hw)
  case endPressed => exact pressEnd_quiet.kept
  case throatEntryReport => exact throatEntry_kept (List.ne_of_not_mem_cons hw)
  case jamReport => exact jam_kept (List.ne_of_not_mem_cons hw)
  case drumWindowExpiry => exact expireDrum_kept (List.ne_of_not_mem_cons hw)
  case idleTimerExpiry => exact expireIdle_quiet.kept
  case panelHoldExpiry => exact Quiet.kept modifyChute_quiet
  case presenceReport => exact completeLoad_quiet.kept
  case loadTimeout => exact failLoad_kept (List.ne_of_not_mem_cons hw)
  case settleTimerExpiry => exact latchWeight_quiet.kept
  case tagReadReport => exact endAttempt_quiet.kept
  case tagReadAttemptTimeout => exact endAttempt_quiet.kept
  case entryReport => exact (restartScan_quiet.trans judgeEntry_quiet).kept
  case transitTimeout => exact failTransit_quiet.kept
  case doorOpened => exact openedDoor_quiet.kept
  case doorClosed => exact closedDoor_quiet.kept
  case unlockWindowExpiry => exact expireUnlock_quiet.kept
  case doorLeftOpenTimerExpiry => exact expireLeftOpen_quiet.kept
  case scanDone => exact finishScan_quiet.kept
  case cosignWindowExpiry => exact lapse_kept (List.ne_of_not_mem_cons hw)
  case purgeWalkEnd => exact endWalk_quiet.kept
  case initialiseStoreComplete => exact endClearing_kept (by simpa [touched] using hw)
  case reportTimerExpiry => exact expireReport_quiet.kept
  case frameSent => exact (modifyLink_quiet Link.sends_kept).kept
  case lineBreak => exact breakLine_quiet.kept
  case receiveLineRise => exact (modifyLink_quiet Link.lineRisen_kept).kept
  case presentLineFall => exact fallLine_kept (List.ne_of_not_mem_cons hw)
  case presentLineRise => exact (modifyLink_quiet Link.risen_kept).kept
  case receivedCharacterFault => exact (modifyLink_quiet Link.faulted_kept).kept

/-- R192: the taking of a command's frame: nothing, a refusal, or the answer of its owner, or BUSY in its place, to the
READY link that received it. -/
theorem takeCommand_cases (l : LinkId) (tag : Nat) (c : Command) (role form : Bool) (owner : State → Answer)
    (s : State) :
    takeCommand l tag c role form owner s = s ∨
      (∃ f, Link.Traffic f ∧ takeCommand l tag c role form owner s = modifyLink l f s) ∨
      (s.links.get l).phase = .ready ∧
        ∃ a, (a = owner (received l s) ∨ a = declined .busy (received l s)) ∧
          takeCommand l tag c role form owner s = a.applied l tag c := by
  unfold takeCommand
  split
  · dsimp only
    have hrefused : ∀ code : RefusalCode,
        ∃ f, Link.Traffic f ∧ modifyLink l (Link.refusedWith tag code c.code) (modifyLink l Link.receivedWhole s) =
          modifyLink l f s :=
      fun code => ⟨_, .then .receivedWhole .refusedWith, modifyLink_modifyLink⟩
    split
    · exact .inr (.inl (hrefused _))
    · exact .inr (.inl (hrefused _))
    next hphase =>
      rw [State.link, modifyLink_get_self] at hphase
      split
      · exact .inr (.inl (hrefused _))
      · split
        · exact .inr (.inl (hrefused _))
        · split
          · exact .inr (.inr ⟨hphase, _, .inr rfl, rfl⟩)
          · exact .inr (.inr ⟨hphase, _, .inl rfl, rfl⟩)
  · exact .inl rfl

/-- R194: COLLECT and DISCARD change their link alone. -/
theorem takeResult_eq {tag : Nat} {c : Command} {act : Link → Link} :
    ∃ f, takeResult l tag c act s = modifyLink l f s := by
  unfold takeResult
  split
  · exact ⟨_, rfl⟩
  · exact ⟨id, by rw [modifyLink, id, Table.set_get_self]⟩

/-- An answer is applied to the link alone. -/
theorem Answer.applied_eq (a : Answer) (l : LinkId) (tag : Nat) (c : Command) :
    ∃ f, a.applied l tag c = modifyLink l f a.state := by
  cases a with
  | done code results u => exact ⟨Link.completed tag code results (c == .setForcedError), rfl⟩
  | started u => exact ⟨fun k => { k with phase := .executing, long := some ⟨c, tag, .deliver⟩ }, rfl⟩

/-- R192: a command row but for the link of its frame: nothing, or its owner's answer. -/
theorem command_result {i : Instr} (hi : (commandOf i).isSome) (h : exec i s = .next t) :
    ∃ l f, t = modifyLink l f s ∨ t = modifyLink l f (ownerOf i (received l s)).state := by
  have hid : ∀ l, modifyLink l id s = s := fun l => by rw [modifyLink, id, Table.set_get_self]
  obtain ⟨⟨l, tag, c⟩, hi⟩ := Option.isSome_iff_exists.mp hi
  refine ⟨l, ?_⟩
  by_cases hc : c = .collect ∨ c = .discard
  · obtain ⟨act, _, hact⟩ := exec_collect_or_discard (s := s) hi hc
    obtain ⟨f, hf⟩ := takeResult_eq (s := s) (l := l) (tag := tag) (c := c) (act := act)
    cases hact.symm.trans h
    exact ⟨f, .inl hf⟩
  · rw [not_or] at hc
    cases (exec_command hi hc.1 hc.2).symm.trans h
    rcases takeCommand_cases l tag c (roleOf i) (formOf i) (ownerOf i) s with he | ⟨f, _, he⟩ | ⟨_, a, ha, he⟩
    · exact ⟨id, .inl (he.trans (hid l).symm)⟩
    · exact ⟨f, .inl he⟩
    · obtain ⟨f, hf⟩ := a.applied_eq l tag c
      rcases ha with rfl | rfl
      · exact ⟨f, .inr (he.trans hf)⟩
      · exact ⟨_, .inl ((he.trans hf).trans modifyLink_modifyLink)⟩

/-- A property of one watched part other than the links is kept by every step if the rows named to move that part, and
the tick, keep it. -/
theorem step_keeps_watched {P : State → Prop} (hw : w ≠ .links) (hP : ∀ s t, Kept w s t → P s → P t)
    (hpending : ∀ s q, P s → P { s with pending := q }) (htick : ∀ s, P s → P (tick s))
    (howner : ∀ i s, w ∈ touched i → P s → P (ownerOf i s).state)
    (hevent : ∀ i s t, w ∈ touched i → commandOf i = none → P s → exec i s = .next t → P t)
    (hs : P s) (h : step s = .next t) : P t := by
  have hlink : ∀ s l f, P s → P (modifyLink l f s) := fun s l f => hP _ _ (Kept.refl.modifyLink hw)
  refine step_keeps hpending htick (fun i s t hs h => exec_keeps (fun l f s _ => hlink s l f) ?_ ?_ hs h) hs h
  · intro i s t hi hs h
    have hstate : ∀ s, P s → P (ownerOf i s).state := fun s hs => by
      by_cases hm : w ∈ touched i
      · exact howner i s hm hs
      · exact hP _ _ (owner_kept i hm) hs
    obtain ⟨l, f, rfl | rfl⟩ := command_result hi h
    · exact hlink _ _ _ hs
    · exact hlink _ _ _ (hstate _ (hlink _ _ _ hs))
  · intro i s t hi hf hs h
    by_cases hm : w ∈ touched i
    · exact hevent i s t hm hi hs h
    · exact hP _ _ (event_kept hi hf hm h) hs

end Sys2Proof.Machine
end

section
-- One theorem after another: elaborated side by side, the whole text asks for more threads than the check has memory for.
set_option Elab.async false
/-! The bounds of the manifest and of the clock (R163, R175, Tables 27, 28 and 41). -/

namespace Sys2Proof.Machine

variable {s t : State}

/-! ## The manifest -/

theorem ManifestKept.of_kept (h : Kept .manifest s t) (hs : ManifestKept s) : ManifestKept t := by
  obtain ⟨hcounter, hcurrent⟩ := h
  refine ⟨hcounter ▸ hs.1, fun m hm => ?_⟩
  obtain ⟨m', hm', hnumber, hentries⟩ := hcurrent m hm
  obtain ⟨hlength, hnodup, hlow, hhigh⟩ := hs.2 m' hm'
  exact ⟨hentries.length_le.trans hlength, hentries.nodup hnodup, hnumber ▸ hlow, hnumber ▸ hhigh⟩

/-- No manifest open, and the counter at its first value. -/
theorem ManifestKept.of_initial (h : s.manifest = .initial) : ManifestKept s := by
  rw [ManifestKept, h]
  exact ⟨by decide, fun m hm => by cases hm⟩

theorem nextManifest_range {n : Nat} (h : n ≤ 9999) : 1 ≤ nextManifest n ∧ nextManifest n ≤ 9999 := by
  have hnext : nextManifest n = if n < 9999 then n + 1 else 1 := rfl
  rw [hnext]
  split <;> omega

/-- R164: the manifest opened takes the counter's number, and the counter moves on. -/
theorem startManifest_keeps (h : ManifestKept s) : ManifestKept (startManifest s) := by
  obtain ⟨⟨hlow, hhigh⟩, _⟩ := h
  refine ⟨nextManifest_range hhigh, fun m hm => ?_⟩
  cases hm
  exact ⟨Nat.zero_le _, List.nodup_nil, hlow, hhigh⟩

/-- R165: an entry joins a manifest that has room for it and does not hold it. -/
theorem ownManifestAdd_keeps {n : Nat} (h : ManifestKept s) : ManifestKept (ownManifestAdd n s).state := by
  unfold ownManifestAdd
  split
  · exact h
  · split
    · exact h
    · split
      · exact h
      next m hm =>
        obtain ⟨hlength, hnodup, hnumber⟩ := h.2 m hm
        repeat' split
        · exact h
        · exact h
        · exact h
        · exact h
        next hnew _ hroom =>
          refine ⟨h.1, fun m' hm' => ?_⟩
          cases hm'
          simp only [List.contains_eq_mem, decide_eq_true_eq] at hnew
          simp only [Config.manifestSize, not_le] at hroom
          exact ⟨by rw [List.length_append]; exact hroom, List.concat_eq_append ▸ hnodup.concat hnew, hnumber⟩

/-- A start keeps the open manifest with the store valid, and begins anew otherwise. -/
theorem startValid_manifest {lines : StartLines} : (startValid lines s).manifest = s.manifest := by
  simp only [startValid, raiseIf, arbitrate_manifest, raiseTimes_manifest, raise_manifest, withLowMarks, restarted]

theorem startInvalid_manifest {lines : StartLines} : (startInvalid lines s).manifest = .initial := rfl

theorem start_keeps_manifest {lines : StartLines} {valid : Bool} (h : ManifestKept s) :
    ManifestKept (if valid then startValid lines s else startInvalid lines s) := by
  split
  · rw [ManifestKept, startValid_manifest]
    exact h
  · exact .of_initial startInvalid_manifest

/-- R207: the completion of INITIALISE STORE begins the manifests anew. -/
theorem endClearing_keeps_manifest (h : ManifestKept s) : ManifestKept (endClearing s) := by
  unfold endClearing
  split
  · exact h
  · exact .of_initial rfl

theorem owner_keeps_manifest {i : Instr} (hi : .manifest ∈ touched i) (hs : ManifestKept s) :
    ManifestKept (ownerOf i s).state := by
  cases i <;> simp [touched] at hi
  case manifestOpen =>
    show ManifestKept (ownManifestOpen s).state
    unfold ownManifestOpen
    repeat' split
    · exact hs
    · exact hs
    · exact startManifest_keeps hs
  case manifestAdd => exact ownManifestAdd_keeps hs
  all_goals exact hs

theorem event_keeps_manifest {i : Instr} (hi : .manifest ∈ touched i) (hc : commandOf i = none)
    (hs : ManifestKept s) (h : exec i s = .next t) : ManifestKept t := by
  cases i <;> simp [touched] at hi <;> cases hc <;> cases h
  case powerUp => exact start_keeps_manifest hs
  case resetN => exact start_keeps_manifest hs
  case initialiseStoreComplete => exact endClearing_keeps_manifest hs

/-- R163: every step keeps the bounds of the manifest. -/
theorem step_keeps_manifest (hs : ManifestKept s) (h : step s = .next t) : ManifestKept t :=
  step_keeps_watched (w := .manifest) (by decide) (fun _ _ => .of_kept) (fun _ _ h => h)
    (fun _ => .of_kept (tick_kept (by decide))) (fun _ _ => owner_keeps_manifest)
    (fun _ _ _ => event_keeps_manifest) hs h

/-! ## The clock -/

theorem ClockInRange.of_kept (h : Kept .clock s t) (hs : ClockInRange s) : ClockInRange t := by
  obtain ⟨hseconds, hdate, hcutoff⟩ := h
  rw [ClockInRange, hseconds, hdate, hcutoff]
  exact hs

/-- A clock cleared with the parameters at their initial values. -/
theorem ClockInRange.of_cleared {cause : InvalidCause} (hclock : s.clock = .cleared cause)
    (hparams : s.store.params = .initial) : ClockInRange s := by
  rw [ClockInRange, hclock, hparams]
  exact ⟨Nat.zero_le _, Nat.zero_le _, by decide⟩

theorem nextSecond_le {n : Nat} : nextSecond n ≤ 86399 := by
  rw [nextSecond_eq]
  split <;> omega

theorem nextDate_le {n : Nat} : nextDate n ≤ 65535 := by
  rw [nextDate_eq]
  split <;> omega

theorem advance_keeps (h : ClockInRange s) : ClockInRange (advance s) := by
  obtain ⟨_, hdate, hcutoff⟩ := h
  unfold advance
  dsimp only
  split
  · exact ⟨nextSecond_le, nextDate_le, hcutoff⟩
  · exact ⟨nextSecond_le, hdate, hcutoff⟩

/-- R179: SET CLOCK writes a reading in range. -/
theorem ownSetClock_keeps {seconds date : Option Nat} (h : ClockInRange s) :
    ClockInRange (ownSetClock seconds date s).state := by
  have hcutoff := h.2.2
  have hwritten : ∀ x d, x ≤ 86399 → d ≤ 65535 → ClockInRange (setReading x d s) := by
    intro x d hx hd
    unfold setReading
    dsimp only
    split
    · exact ⟨hx, hd, hcutoff⟩
    · exact ⟨hx, hd, hcutoff⟩
  unfold ownSetClock
  repeat' split
  · exact h
  · exact h
  next hrange _ =>
    simp only [Config.lastSecond, Config.lastDate, not_or, not_lt] at hrange
    exact hwritten _ _ hrange.1 hrange.2
  · exact h
  · exact h

/-- R208: a parameter written in its range leaves the cutoff in its own. -/
theorem Params.write_cutoff {p : Params} {n v : Nat} (h : parameterInRange n v = true) (hp : p.cutoff ≤ 86399) :
    (p.write n v).cutoff ≤ 86399 := by
  by_cases hn : n = 15
  · subst hn
    simpa [parameterInRange, parameterRange, Params.write] using h
  · unfold Params.write
    repeat' split
    all_goals first | exact hp | exact absurd rfl hn

theorem writeParameter_keeps {n v : Nat} (hr : parameterInRange n v = true) (h : ClockInRange s) :
    ClockInRange (writeParameter n v s) := by
  obtain ⟨hseconds, hdate, hcutoff⟩ := h
  have hwritten : ClockInRange { s with store := { s.store with params := s.store.params.write n v } } :=
    ⟨hseconds, hdate, Params.write_cutoff hr hcutoff⟩
  unfold writeParameter
  dsimp only
  split
  · exact .of_kept testLowMarks_quiet.kept hwritten
  · exact hwritten

theorem ownSetParameter_keeps {l : LinkId} {n v : Option Nat} (h : ClockInRange s) :
    ClockInRange (ownSetParameter l n v s).state := by
  unfold ownSetParameter
  repeat' split
  · exact h
  · exact h
  · exact h
  next hrange _ _ => exact writeParameter_keeps (by simpa using hrange) h
  · exact h
  · exact h

/-- R183: a start with the store valid counts the clock on within the day. -/
theorem startValid_keeps_clock {lines : StartLines} (h : ClockInRange s) : ClockInRange (startValid lines s) := by
  have hclock : (startValid lines s).clock = s.clock.restarted s.store.params.cutoff lines.downSeconds := by
    simp only [startValid, raiseIf, arbitrate_clock, raiseTimes_clock, raise_clock, withLowMarks, restarted]
  have hparams : (startValid lines s).store.params = s.store.params := by
    simp only [startValid, raiseIf, arbitrate_store, raiseTimes_store, raise_store, withLowMarks, restarted]
  rw [ClockInRange, hclock, hparams]
  exact ⟨Nat.le_of_lt_succ (Nat.mod_lt _ (by decide)), h.2⟩

theorem start_keeps_clock {lines : StartLines} {valid : Bool} (h : ClockInRange s) :
    ClockInRange (if valid then startValid lines s else startInvalid lines s) := by
  split
  · exact startValid_keeps_clock h
  · exact .of_cleared rfl rfl

theorem endClearing_keeps_clock (h : ClockInRange s) : ClockInRange (endClearing s) := by
  unfold endClearing
  split
  · exact h
  · exact .of_cleared rfl rfl

theorem owner_keeps_clock {i : Instr} (hi : .clock ∈ touched i) (hs : ClockInRange s) :
    ClockInRange (ownerOf i s).state := by
  cases i <;> simp [touched] at hi
  case setClock => exact ownSetClock_keeps hs
  case setParameter => exact ownSetParameter_keeps hs
  all_goals exact hs

theorem event_keeps_clock {i : Instr} (hi : .clock ∈ touched i) (hc : commandOf i = none)
    (hs : ClockInRange s) (h : exec i s = .next t) : ClockInRange t := by
  cases i <;> simp [touched] at hi <;> cases hc <;> cases h
  case powerUp => exact start_keeps_clock hs
  case resetN => exact start_keeps_clock hs
  case clockAdvance => exact advance_keeps hs
  case initialiseStoreComplete => exact endClearing_keeps_clock hs

/-- R175: every step keeps the ranges of the clock. -/
theorem step_keeps_clock (hs : ClockInRange s) (h : step s = .next t) : ClockInRange t :=
  step_keeps_watched (w := .clock) (by decide) (fun _ _ => .of_kept) (fun _ _ h => h)
    (fun _ => .of_kept (tick_kept (by decide))) (fun _ _ => owner_keeps_clock)
    (fun _ _ _ => event_keeps_clock) hs h

end Sys2Proof.Machine

open Sys2Proof Sys2Proof.Machine

/-- Settles O20: the rows that write the manifest or the clock keep the bounds, and no other row moves them. -/
theorem stepKeepsManifestAndClock : Obligations.StepKeepsManifestAndClock := by
  unfold Obligations.StepKeepsManifestAndClock
  exact fun s t h => ⟨fun hs => step_keeps_manifest hs h, fun hs => step_keeps_clock hs h⟩

end

section
-- One theorem after another: elaborated side by side, the whole text asks for more threads than the check has memory for.
set_option Elab.async false
/-! The register's capacity and its custody numbers (R1, R9, R10). -/

namespace Sys2Proof.Machine

variable {s t : State} {o : Prop}

/-! ## The number issued -/

theorem advanceNumber_eq {n : Nat} : advanceNumber n = if n < 65535 then n + 1 else 1 := rfl

theorem advanceNumber_range {n : Nat} : 1 ≤ advanceNumber n ∧ advanceNumber n ≤ 65535 := by
  rw [advanceNumber_eq]
  split <;> omega

/-- R9: custody numbers are given round the cycle of 65,535. -/
theorem iterate_advanceNumber {n : Nat} (h : 1 ≤ n ∧ n ≤ 65535) (k : Nat) :
    advanceNumber^[k] n = (n - 1 + k) % 65535 + 1 := by
  induction k with
  | zero => simp only [Function.iterate_zero, id]; omega
  | succ k ih =>
    rw [Function.iterate_succ', Function.comp, ih, advanceNumber_eq]
    split <;> omega

/-- The search stays in the range of custody numbers. -/
theorem nextFree_range {fuel n : Nat} {held : List Nat} (h : 1 ≤ n ∧ n ≤ 65535) :
    1 ≤ nextFree fuel held n ∧ nextFree fuel held n ≤ 65535 := by
  induction fuel generalizing n with
  | zero => exact h
  | succ fuel ih =>
    unfold nextFree
    split
    · exact ih advanceNumber_range
    · exact h

/-- Where the search ends at a held number, every number it tried is held. -/
theorem iterate_mem_of_nextFree_mem {fuel n : Nat} {held : List Nat} (h : nextFree fuel held n ∈ held) :
    ∀ k ≤ fuel, advanceNumber^[k] n ∈ held := by
  induction fuel generalizing n with
  | zero =>
    intro k hk
    rw [Nat.le_zero.mp hk]
    exact h
  | succ fuel ih =>
    have hn : n ∈ held := by
      by_contra hn
      simp only [nextFree, List.contains_eq_mem, hn, decide_false, Bool.false_eq_true, if_false] at h
    simp only [nextFree, List.contains_eq_mem, hn, decide_true, if_true] at h
    intro k hk
    cases k with
    | zero => exact hn
    | succ k => exact ih h k (Nat.le_of_succ_le_succ hk)

/-- R9: among one number more than are held, one is free. -/
theorem nextFree_not_mem {n : Nat} {held : List Nat} (h : 1 ≤ n ∧ n ≤ 65535) (hlength : held.length ≤ 320) :
    nextFree held.length held n ∉ held := by
  intro hmem
  have htried := iterate_mem_of_nextFree_mem hmem
  have hsubset : (Finset.range (held.length + 1)).image (fun k => advanceNumber^[k] n) ⊆ held.toFinset := by
    intro x hx
    obtain ⟨k, hk, rfl⟩ := Finset.mem_image.mp hx
    exact List.mem_toFinset.mpr (htried k (Nat.lt_succ_iff.mp (Finset.mem_range.mp hk)))
  have hinjective : Set.InjOn (fun k => advanceNumber^[k] n) (Finset.range (held.length + 1)) := by
    intro a ha b hb hab
    simp only [Finset.coe_range, Set.mem_Iio] at ha hb
    simp only [iterate_advanceNumber h] at hab
    omega
  have hcard := Finset.card_le_card hsubset
  rw [Finset.card_image_of_injOn hinjective, Finset.card_range] at hcard
  exact absurd (hcard.trans held.toFinset_card_le) (Nat.not_succ_le_self _)

/-- R9: the number issued is in range and free. -/
theorem issuedNumber_spec {r : Register} (h : NumbersInRange r) :
    (1 ≤ issuedNumber r ∧ issuedNumber r ≤ 65535) ∧ issuedNumber r ∉ r.records.map Record.number := by
  obtain ⟨hnext, _, hlength⟩ := h
  have hheld : (r.records.map Record.number).length = r.records.length := List.length_map ..
  unfold issuedNumber
  exact ⟨nextFree_range hnext, hheld ▸ nextFree_not_mem hnext (hheld ▸ hlength)⟩

/-! ## The records -/

/-- The custody numbers are in range and distinct, and ascending where they were. -/
def Listed (o : Prop) (r : Register) : Prop :=
  NumbersInRange r ∧ (r.records.map Record.number).Nodup ∧ (o → InNumberOrder r)

theorem Listed.of_sublist {r r' : Register} (h : Listed o r)
    (hnumbers : (r'.records.map Record.number).Sublist (r.records.map Record.number))
    (hnext : r'.nextNumber = r.nextNumber) : Listed o r' := by
  obtain ⟨⟨hrange, hrecords, hlength⟩, hnodup, horder⟩ := h
  have hle := hnumbers.length_le
  rw [List.length_map, List.length_map] at hle
  refine ⟨⟨hnext ▸ hrange, fun x hx => ?_, hle.trans hlength⟩, hnodup.sublist hnumbers,
    fun ho => (horder ho).sublist hnumbers⟩
  obtain ⟨y, hy, hxy⟩ := List.mem_map.mp (hnumbers.subset (List.mem_map_of_mem hx))
  exact hxy ▸ hrecords y hy

/-- The register without a record. -/
theorem Listed.of_nil {r : Register} (hrecords : r.records = []) (hnext : r.nextNumber = 1) : Listed o r := by
  unfold Listed NumbersInRange InNumberOrder
  rw [hrecords, hnext]
  simp

/-- The records of a list that a record was inserted into, in some order. -/
theorem insertRecord_perm {x : Record} {records : List Record} : (insertRecord x records).Perm (x :: records) := by
  induction records with
  | nil => exact .refl _
  | cons y ys ih =>
    unfold insertRecord
    split
    · exact .refl _
    · exact (ih.cons y).trans (.swap x y ys)

/-- R9, R10: a record inserted under the number issued. -/
theorem Listed.insert {r r' : Register} {x : Record} (h : Listed o r) (hx : x.number = issuedNumber r)
    (hrecords : r'.records = insertRecord x r.records) (hnext : r'.nextNumber = advanceNumber (issuedNumber r))
    (hroom : r.records.length < 320) : Listed o r' := by
  obtain ⟨hrange, hnodup, horder⟩ := h
  obtain ⟨hissued, hfree⟩ := issuedNumber_spec hrange
  rw [← hx] at hissued hfree
  have hperm : (insertRecord x r.records).Perm (x :: r.records) := insertRecord_perm
  refine ⟨⟨hnext ▸ advanceNumber_range, fun y hy => ?_, ?_⟩, ?_, fun ho => ?_⟩
  · rcases mem_insertRecord.mp (hrecords ▸ hy) with rfl | hy
    · exact hissued
    · exact hrange.2.1 y hy
  · rw [hrecords, hperm.length_eq]
    exact hroom
  · rw [hrecords, (hperm.map Record.number).nodup_iff]
    exact List.nodup_cons.mpr ⟨hfree, hnodup⟩
  · rw [InNumberOrder, hrecords]
    exact insertRecord_ascending (horder ho) fun y hy e => hfree (e ▸ List.mem_map_of_mem hy)

/-! ## The capacity -/

/-- R10 within a drum turn's end: a number of chutes in DRUM have lost their reservation already. -/
def Reserving (owed : Nat) (o : Prop) (s : State) : Prop :=
  s.register.reservations + owed = s.chutes.cells.countP Chute.inDrum ∧
    s.register.records.length + s.register.reservations ≤ 320 ∧ Listed o s.register

theorem Reserving.of_kept {owed : Nat} (h : Kept .register s t) (hs : Reserving owed o s) : Reserving owed o t := by
  obtain ⟨hnumbers, hnext, hreservations, hdrums⟩ := h
  obtain ⟨howed, hroom, hlisted⟩ := hs
  have hle := hnumbers.length_le
  rw [List.length_map, List.length_map] at hle
  exact ⟨by rw [hreservations, hdrums, howed], by rw [hreservations]; omega, hlisted.of_sublist hnumbers hnext⟩

/-- A chute that leaves DRUM. -/
theorem countP_inDrum_leave {c : ChuteId} {f : Chute → Chute} (hin : (s.chute c).inDrum = true)
    (hout : (f (s.chute c)).inDrum = false) :
    (modifyChute c f s).chutes.cells.countP Chute.inDrum + 1 = s.chutes.cells.countP Chute.inDrum := by
  have hcount : _ + (if (s.chute c).inDrum then 1 else 0) = _ :=
    s.chutes.countP_set Chute.inDrum c (f (s.chute c))
  rwa [if_pos hin, if_neg (ne_true_of_eq_false hout)] at hcount

/-- A chute that enters DRUM. -/
theorem countP_inDrum_enter {c : ChuteId} {f : Chute → Chute} (hout : (s.chute c).inDrum = false)
    (hin : (f (s.chute c)).inDrum = true) :
    (modifyChute c f s).chutes.cells.countP Chute.inDrum = s.chutes.cells.countP Chute.inDrum + 1 := by
  have hcount : _ + (if (s.chute c).inDrum then 1 else 0) = _ :=
    s.chutes.countP_set Chute.inDrum c (f (s.chute c))
  rwa [if_pos hin, if_neg (ne_true_of_eq_false hout)] at hcount

/-- R10: a chute in DRUM whose reservation is gone leaves DRUM. -/
theorem Reserving.leaveDrum {c : ChuteId} {f : Chute → Chute} (h : Reserving 1 o s)
    (hin : (s.chute c).inDrum = true) (hout : (f (s.chute c)).inDrum = false) :
    Reserving 0 o (modifyChute c f s) := by
  obtain ⟨howed, hroom, hlisted⟩ := h
  refine ⟨?_, hroom, hlisted⟩
  have hcount := countP_inDrum_leave hin hout
  rw [modifyChute_register]
  omega

/-- A chute in DRUM holds a reservation. -/
theorem Reserving.pos {c : ChuteId} (h : Reserving 0 o s) (hin : (s.chute c).inDrum = true) :
    1 ≤ s.register.reservations := by
  have hone : 1 ≤ s.chutes.cells.countP Chute.inDrum := List.one_le_countP_iff.mpr ⟨_, s.chutes.get_mem c, hin⟩
  have := h.1
  omega

theorem Reserving.returned {c : ChuteId} (h : Reserving 0 o s) (hin : (s.chute c).inDrum = true) :
    Reserving 1 o (returnReservation s) := by
  have hpos := h.pos hin
  obtain ⟨howed, hroom, hlisted⟩ := h
  have hreservations : (returnReservation s).register.reservations = s.register.reservations - 1 := rfl
  refine ⟨?_, ?_, hlisted.of_sublist (List.Sublist.refl _) rfl⟩
  · rw [hreservations, returnReservation_chutes]
    omega
  · rw [hreservations]
    show s.register.records.length + _ ≤ _
    omega

theorem Reserving.created {c : ChuteId} {d : DepositorId} {st : RecordState} (h : Reserving 0 o s)
    (hin : (s.chute c).inDrum = true) : Reserving 1 o (createRecord c d st s) := by
  have hpos := h.pos hin
  obtain ⟨howed, hroom, hlisted⟩ := h
  have hreservations : (createRecord c d st s).register.reservations = s.register.reservations - 1 := rfl
  have hlength : (createRecord c d st s).register.records.length = s.register.records.length + 1 :=
    insertRecord_perm.length_eq
  refine ⟨?_, ?_, hlisted.insert rfl rfl rfl (by omega)⟩
  · rw [hreservations, createRecord_chutes]
    omega
  · rw [hreservations, hlength]
    omega

theorem Reserving.turnEnded {c : ChuteId} {d : DepositorId} {last : Bool} {atEnd going : Indication}
    (h : Reserving 1 o s) (hin : (s.chute c).inDrum = true) :
    Reserving 0 o (turnEnded c d last atEnd going s) := by
  unfold Machine.turnEnded
  split
  · exact h.leaveDrum hin rfl
  · exact h.leaveDrum hin rfl

/-- A chute in DRUM whose reservation was used goes to FAULT. -/
theorem Reserving.faulted {c : ChuteId} (h : Reserving 1 o s) (hin : (s.chute c).inDrum = true) :
    Reserving 0 o (faultChute c false s) := by
  have hchute : (s.chutes.get c).state ≠ .fault := fun hfault => by
    rw [Chute.inDrum, State.chute, hfault] at hin
    cases hin
  rw [faultChute_of_not_fault hchute]
  exact .of_kept raise_quiet.kept (h.leaveDrum hin rfl)

/-- A chute in DRUM that still holds its reservation goes to FAULT and returns it. -/
theorem Reserving.faulted_returned {c : ChuteId} (h : Reserving 0 o s) (hin : (s.chute c).inDrum = true) :
    Reserving 0 o (faultChute c true s) := by
  have hchute : (s.chutes.get c).state ≠ .fault := fun hfault => by
    rw [Chute.inDrum, State.chute, hfault] at hin
    cases hin
  rw [faultChute_of_not_fault hchute]
  exact .of_kept raise_quiet.kept ((h.returned hin).leaveDrum hin rfl)

/-- A chute outside DRUM goes to FAULT with no reservation to return. -/
theorem faultChute_quiet {c : ChuteId} (hout : (s.chute c).inDrum = false) : Quiet s (faultChute c false s) := by
  unfold faultChute
  split
  · exact .refl
  · exact Quiet.trans (modifyChute_quiet (by rw [hout]; rfl)) raise_quiet

theorem inDrum_of_drum {k : Chute} {d : DepositorId} {ms : Nat} {p : Bool} (h : k.state = .drum d ms p) :
    k.inDrum = true := by
  rw [Chute.inDrum, h]

theorem inDrum_of_not_drum {k : Chute} (h : ∀ d ms p, k.state ≠ .drum d ms p) : k.inDrum = false := by
  unfold Chute.inDrum
  split
  next d ms p hk => exact absurd hk (h d ms p)
  · rfl

/-! ## The rows that move the register -/

section
variable {c : ChuteId} (hs : Reserving 0 o s)
include hs

/-- R54: a turn starts where a record is free. -/
theorem startTurn_reserves {d : DepositorId} (hout : (s.chute c).inDrum = false) (hfree : freeRecords s ≠ 0) :
    Reserving 0 o (startTurn c d s) := by
  obtain ⟨howed, hroom, hlisted⟩ := hs
  have hcount : (startTurn c d s).chutes.cells.countP Chute.inDrum = s.chutes.cells.countP Chute.inDrum + 1 :=
    countP_inDrum_enter (f := Chute.shownIn (.drum d (s.store.params.drumWindow * 1000) false)) hout rfl
  have hreservations : (startTurn c d s).register.reservations = s.register.reservations + 1 := rfl
  simp only [freeRecords, Config.maxRecords] at hfree
  refine ⟨by omega, ?_, hlisted.of_sublist (List.Sublist.refl _) rfl⟩
  rw [hreservations]
  show s.register.records.length + _ ≤ _
  omega

theorem pressDrop_reserves : Reserving 0 o (pressDrop c s) := by
  unfold pressDrop
  split
  next d ms hsession =>
    have hout : (s.chute c).inDrum = false := by rw [Chute.inDrum, hsession]
    repeat' split
    · exact .of_kept (Quiet.kept (modifyChute_quiet (by rw [hout]; rfl))) hs
    · exact .of_kept (Quiet.kept modifyChute_quiet) hs
    · exact .of_kept (Quiet.kept modifyChute_quiet) hs
    next hfree => exact startTurn_reserves hs hout hfree
  · exact hs

theorem throatEntry_reserves : Reserving 0 o (throatEntry c s) := by
  unfold throatEntry
  split
  next d ms p hdrum =>
    have hin := inDrum_of_drum hdrum
    unfold arrival
    dsimp only
    refine .of_kept arbitrate_quiet.kept (Reserving.turnEnded ?_ ?_)
    · exact .of_kept (Quiet.kept modifyChute_quiet) (hs.created hin)
    · simpa only [State.chute, modifyChute, Table.get_set_self, Chute.inDrum, createRecord_chutes] using hin
  next hout => exact .of_kept (faultChute_quiet (inDrum_of_not_drum hout)).kept hs

theorem jam_reserves : Reserving 0 o (jam c s) := by
  unfold jam
  split
  next d ms p hdrum =>
    have hin := inDrum_of_drum hdrum
    exact .of_kept raise_quiet.kept ((hs.created hin).faulted hin)
  next hout => exact .of_kept (faultChute_quiet (inDrum_of_not_drum hout)).kept hs

theorem expireDrum_reserves : Reserving 0 o (expireDrum c s) := by
  unfold expireDrum
  split
  next d ms p hdrum => exact (hs.returned (inDrum_of_drum hdrum)).turnEnded (inDrum_of_drum hdrum)
  · exact hs

theorem faultSource_reserves {src : Source} : Reserving 0 o (faultSource src s) := by
  cases src with
  | service => exact hs
  | throat c =>
    rw [faultSource]
    cases hin : (s.chute c).inDrum with
    | true => exact hs.faulted_returned hin
    | false => exact .of_kept (faultChute_quiet hin).kept hs

end

theorem failLoad_reserves (hs : Reserving 0 o s) : Reserving 0 o (failLoad s) := by
  unfold failLoad
  split
  next n src _ _ =>
    have hstranded : Quiet s (raise .stranded (modifyRecord n Record.stranded (setStation .idle s))) :=
      setStation_quiet.trans (.trans modifyRecord_quiet raise_quiet)
    exact .of_kept arbitrate_quiet.kept (faultSource_reserves (.of_kept hstranded.kept hs))
  · exact hs

theorem Chute.storeClosed_inDrum {k : Chute} : k.storeClosed.inDrum = false := by
  unfold Chute.storeClosed
  cases h : k.state <;> simp [Chute.inDrum, Chute.shownClosed, Chute.entered, h]

/-- A change of every chute after which none is in DRUM. -/
theorem countP_inDrum_map_eq_zero {f : Chute → Chute} (h : ∀ k, (f k).inDrum = false) :
    (s.chutes.map f).cells.countP Chute.inDrum = 0 := by
  rw [List.countP_eq_zero]
  intro k hk
  obtain ⟨k', _, rfl⟩ := List.mem_map.mp hk
  rw [h]
  exact Bool.false_ne_true

/-- R207: the reservations of the turns that INITIALISE STORE ends are returned. -/
theorem startClearing_reserves (hs : Reserving 0 o s) : Reserving 0 o (startClearing s) := by
  obtain ⟨howed, hroom, hlisted⟩ := hs
  have hdrums : (startClearing s).chutes.cells.countP Chute.inDrum = 0 :=
    countP_inDrum_map_eq_zero fun _ => Chute.storeClosed_inDrum
  have hreservations : (startClearing s).register.reservations = s.register.reservations - drumCount s := rfl
  unfold drumCount at hreservations
  refine ⟨by omega, ?_, hlisted.of_sublist (List.Sublist.refl _) rfl⟩
  rw [hreservations]
  show s.register.records.length + _ ≤ _
  omega

theorem cleared_reserves (hs : Reserving 0 o s) : Reserving 0 o (cleared s) := by
  obtain ⟨howed, hroom, _⟩ := hs
  refine ⟨?_, ?_, .of_nil rfl rfl⟩
  · show s.register.reservations + 0 = _
    rw [howed]
    exact (Table.countP_map_of_eq (f := fun k : Chute => { k with masked := false, queue := [] }) fun _ => rfl).symm
  · show 0 + s.register.reservations ≤ 320
    omega

theorem endClearing_reserves (hs : Reserving 0 o s) : Reserving 0 o (endClearing s) := by
  unfold endClearing
  split
  · exact hs
  · rw [withLowMarks_cleared]
    exact .of_kept (raise_quiet.trans endLong_quiet).kept (cleared_reserves hs)

theorem restarted_reserves {lines : StartLines} (hs : Reserving 0 o s) : Reserving 0 o (restarted lines s) := by
  obtain ⟨_, hroom, hlisted⟩ := hs
  have hdrums : (restarted lines s).chutes.cells.countP Chute.inDrum = 0 := countP_inDrum_map_eq_zero fun _ => rfl
  have hnumbers : (restarted lines s).register.records.map Record.number = s.register.records.map Record.number := by
    simp only [restarted, Register.restarted, List.map_map]
    refine List.map_congr_left fun r _ => ?_
    simp only [Function.comp]
    split <;> rfl
  have hlength : (restarted lines s).register.records.length = s.register.records.length := by
    simpa only [List.length_map] using congrArg List.length hnumbers
  refine ⟨?_, ?_, hlisted.of_sublist (hnumbers ▸ List.Sublist.refl _) rfl⟩
  · rw [hdrums]; rfl
  · rw [hlength]
    show s.register.records.length + 0 ≤ 320
    omega

theorem start_reserves {lines : StartLines} {valid : Bool} (hs : Reserving 0 o s) :
    Reserving 0 o (if valid then startValid lines s else startInvalid lines s) := by
  split
  · have hmarks : ∀ u, Quiet u (withLowMarks u) := fun _ => {}
    exact .of_kept ((hmarks _).trans (raise_quiet.trans (raiseTimes_quiet.trans (raiseTimes_quiet.trans
      (raiseTimes_quiet.trans arbitrate_quiet))))).kept (restarted_reserves hs)
  · exact .of_kept (raise_quiet.trans raise_quiet).kept ⟨rfl, Nat.zero_le _, .of_nil rfl rfl⟩

/-! ## Every step -/

theorem owner_reserves {i : Instr} (hi : .register ∈ touched i) (hs : Reserving 0 o s) :
    Reserving 0 o (ownerOf i s).state := by
  cases i <;> simp [touched] at hi
  case initialiseStore =>
    show Reserving 0 o (ownInitialiseStore s).state
    unfold ownInitialiseStore
    split
    · exact hs
    · exact startClearing_reserves hs
  all_goals exact hs

theorem event_reserves {i : Instr} (hi : .register ∈ touched i) (hc : commandOf i = none) (hs : Reserving 0 o s)
    (h : exec i s = .next t) : Reserving 0 o t := by
  cases i <;> simp [touched] at hi <;> cases hc <;> cases h
  case powerUp => exact start_reserves hs
  case resetN => exact start_reserves hs
  case drop => exact pressDrop_reserves hs
  case throatEntryReport => exact throatEntry_reserves hs
  case jamReport => exact jam_reserves hs
  case drumWindowExpiry => exact expireDrum_reserves hs
  case loadTimeout => exact failLoad_reserves hs
  case initialiseStoreComplete => exact endClearing_reserves hs

/-- R1, R9, R10: every step keeps the register's capacity and its numbers. -/
theorem step_reserves (hs : Reserving 0 o s) (h : step s = .next t) : Reserving 0 o t :=
  step_keeps_watched (w := .register) (by decide) (fun _ _ => .of_kept) (fun _ _ h => h)
    (fun _ => .of_kept (tick_kept (by decide))) (fun _ _ => owner_reserves) (fun _ _ _ => event_reserves) hs h

end Sys2Proof.Machine

open Sys2Proof Sys2Proof.Machine

/-- Settles O19: the ascending order is carried as what a step keeps where it held. -/
theorem stepKeepsTheRegister : Obligations.StepKeepsTheRegister := by
  unfold Obligations.StepKeepsTheRegister
  intro s t hcapacity hrange hnodup h
  obtain ⟨howed, hroom, hrange', hnodup', horder⟩ :=
    step_reserves (o := InNumberOrder s.register) ⟨hcapacity.1, hcapacity.2, hrange, hnodup, id⟩ h
  exact ⟨⟨howed, hroom⟩, hrange', hnodup', horder⟩

/-- Settles O21: the search tries one number more than are held. -/
theorem issuedNumberIsFree : Obligations.IssuedNumberIsFree := by
  unfold Obligations.IssuedNumberIsFree
  intro r h
  obtain ⟨⟨hlow, hhigh⟩, hfree⟩ := issuedNumber_spec h
  exact ⟨hlow, hhigh, fun x hx e => hfree (e ▸ List.mem_map_of_mem hx)⟩

end

section
-- One theorem after another: elaborated side by side, the whole text asks for more threads than the check has memory for.
set_option Elab.async false
/-! Dual control over banks and doors (R116, R117, R122, R139). -/

namespace Sys2Proof.Machine

variable {s t : State} {l : LinkId} {r : Fin 9}

/-! ## A bank yielded -/

/-- R131: the doors of a resource told that its holder lost it; STATION and the hatches have none. -/
theorem toldLost_eq :
    toldLost r l s = relocked (fun c k => decide (bankResource (bankOf c) = r) && k == l) s := by
  unfold toldLost
  split
  next b hb =>
    rw [asBank_eq_some] at hb
    subst hb
    rw [relockBank_eq]
    have hbank : ∀ b', decide (bankResource b' = bankResource b) = (b' == b) := fun b' => by
      rw [Bool.eq_iff_iff]
      simp [bankResource, Fin.ext_iff]
    simp only [hbank]
  next hnone =>
    refine (relocked_of_none fun c => ?_).symm
    by_contra hsome
    obtain ⟨k, hk⟩ := Option.ne_none_iff_exists'.mp hsome
    have hbank : bankResource (bankOf c) = r := by
      have := (abandonedAt_eq_some.mp hk).2
      rw [Bool.and_eq_true, decide_eq_true_eq] at this
      exact this.1
    rw [asBank_eq_some.mpr hbank.symm] at hnone
    cases hnone

/-- R123, R131, R144: a resource yielded, with everything that follows. -/
theorem yieldHeld_eq :
    yieldHeld l r s =
      relockedOnce (fun c k => decide (bankResource (bankOf c) = r) && k == l)
        { s with claims := { s.claims with resources := s.claims.resources.set r .free } } := by
  unfold yieldHeld setHolder
  rw [toldLost_eq, relocked_claims, afterRelock_relocked]

/-! ## What dual control rests on -/

theorem DoorOp.issuer_eq_some {op : DoorOp} {work : DoorWork} (h : op.issuer = some (l, work)) :
    ∃ d, op = .command l work d := by
  cases op with
  | unattended => cases h
  | command k w d => cases h; exact ⟨d, rfl⟩

theorem DualControl.of_kept (h : Kept .claims s t) (hs : DualControl s) : DualControl t := by
  obtain ⟨hclaims, hdoors⟩ := h
  obtain ⟨hbanks, hwait, hcosigners, hothers, hunlocked⟩ := hs
  unfold DualControl BanksNeedOpenSafe OnlyBanksWait CosignersOfBanks CosignersAreOthers UnlockedUnderHold
  rw [hclaims]
  refine ⟨hbanks, hwait, hcosigners, hothers, fun c op ms hdoor => ?_⟩
  obtain ⟨op', ms', hdoor', hissuer⟩ := hdoors c op ms hdoor
  obtain ⟨hsafe, l, w, d, k, rfl, hw, hheld⟩ := hunlocked c op' ms' hdoor'
  obtain ⟨d', rfl⟩ := DoorOp.issuer_eq_some hissuer.symm
  exact ⟨hsafe, l, w, d', k, rfl, hw, hheld⟩

/-- Every resource RETAINED and no door UNLOCKED. -/
theorem DualControl.of_initial (hclaims : t.claims = .initial)
    (hdoors : ∀ c op ms, (t.cabinet.compartments.get c).door ≠ .unlocked op ms) : DualControl t := by
  have hretained : ∀ r, t.claims.resources.get r = .retained := fun r => by
    rw [hclaims, Claims.initial, Table.get_fill]
  refine ⟨fun b hb => absurd (hretained _) hb, fun r l ms h => ?_, fun r l k h => ?_, fun r l k h => ?_,
    fun c op ms h => absurd h (hdoors c op ms)⟩
  all_goals rw [hretained] at h; cases h

/-- A holder written of a resource under which no door is UNLOCKED. -/
theorem DualControl.setHolder {h : Holder} (hs : DualControl s)
    (hsafe : r.val < 4 → h ≠ .retained → s.claims.safe = .opened)
    (hwait : ∀ l ms, h = .cosignWait l ms → r.val < 4)
    (hheld : ∀ l k, h = .held l k → (k.isSome = true ↔ r.val < 4) ∧ k ≠ some l)
    (hdoors : ∀ l k, s.claims.resources.get r ≠ .held l k) : DualControl (setHolder r h s) := by
  obtain ⟨hbanks, hwaiting, hcosigners, hothers, hunlocked⟩ := hs
  refine ⟨fun b => ?_, fun x l ms => ?_, fun x l k => ?_, fun x l k => ?_, fun c op ms hdoor => ?_⟩
  all_goals simp only [Machine.setHolder, Table.get_set]
  · split
    next hb => exact fun hne => hsafe (hb ▸ b.isLt) hne
    next => exact hbanks b
  · split
    next hx => exact fun he => hx ▸ hwait l ms he
    next => exact hwaiting x l ms
  · split
    next hx => exact fun he => hx ▸ (hheld l k he).1
    next => exact hcosigners x l k
  · split
    next => exact fun he hkl => (hheld l (some k) he).2 (congrArg some hkl)
    next => exact hothers x l k
  · obtain ⟨hopened, l, w, d, k, hop, hw, hholder⟩ := hunlocked c op ms hdoor
    refine ⟨hopened, l, w, d, k, hop, hw, ?_⟩
    rw [if_neg fun hc : bankResource (bankOf c) = r => hdoors l k (hc ▸ hholder)]
    exact hholder

/-- R131, R139: claims that only give up resources, and the doors of the banks given up relocked. -/
theorem DualControl.relockedOnce {lost : CompartmentId → LinkId → Bool} {k : Claims} (hs : DualControl s)
    (hbanks : ∀ b, k.resources.get (bankResource b) ≠ .retained → k.safe = .opened)
    (hgiven : ∀ r, k.resources.get r = .retained ∨ k.resources.get r = .free ∨
      k.resources.get r = s.claims.resources.get r)
    (hdoors : ∀ c l x, s.claims.resources.get (bankResource (bankOf c)) = .held l x → lost c l = false →
      k.resources.get (bankResource (bankOf c)) = .held l x ∧ k.safe = s.claims.safe) :
    DualControl (relockedOnce lost { s with claims := k }) := by
  have hrelocked : DualControl (relocked lost { s with claims := k }) := by
    obtain ⟨_, hwaiting, hcosigners, hothers, hunlocked⟩ := hs
    refine ⟨hbanks, fun r l ms hr => ?_, fun r l x hr => ?_, fun r l x hr => ?_, fun c op ms hdoor => ?_⟩
    · change k.resources.get r = _ at hr
      rcases hgiven r with hg | hg | hg
      · rw [hg] at hr; cases hr
      · rw [hg] at hr; cases hr
      · exact hwaiting r l ms (hg ▸ hr)
    · change k.resources.get r = _ at hr
      rcases hgiven r with hg | hg | hg
      · rw [hg] at hr; cases hr
      · rw [hg] at hr; cases hr
      · exact hcosigners r l x (hg ▸ hr)
    · change k.resources.get r = _ at hr
      rcases hgiven r with hg | hg | hg
      · rw [hg] at hr; cases hr
      · rw [hg] at hr; cases hr
      · exact hothers r l x (hg ▸ hr)
    · rw [relocked_box] at hdoor
      split at hdoor
      next hkept =>
        obtain ⟨hopened, l, w, d, x, rfl, hw, hholder⟩ := hunlocked c op ms hdoor
        have hlost : lost c l = false := by
          by_contra hne
          rw [abandonedAt_eq_some.mpr ⟨⟨w, d, ms, hdoor⟩, eq_true_of_ne_false hne⟩] at hkept
          cases hkept
        obtain ⟨hheld, hsafe⟩ := hdoors c l x hholder hlost
        exact ⟨hsafe.trans hopened, l, w, d, x, rfl, hw, hheld⟩
      next => cases hdoor
  unfold Machine.relockedOnce
  split
  · exact .of_kept retested_quiet.kept hrelocked
  next hnone =>
    rwa [relocked_of_none fun c => by by_contra hc; exact hnone ⟨c, hc⟩] at hrelocked

/-! ## The rows that move the claims -/

/-- R119: resources retained, the safe as it was or LOCKED with every bank among them. -/
theorem retainAll_keeps_dualControl {rs : List (Fin 9)} {safe : SafeState} (hs : DualControl s)
    (hsafe : safe = s.claims.safe ∨ ∀ b, bankResource b ∈ rs) :
    DualControl (retainAll rs (setSafe safe s)) := by
  rw [retainAll_eq]
  refine DualControl.relockedOnce (s := s) hs (fun b => ?_) (fun r => ?_) (fun c l x hheld hlost => ?_)
  · simp only [setSafe, Table.get_tabulate]
    split
    · exact fun h => absurd rfl h
    next hb =>
      rcases hsafe with he | hall
      · rw [he]; exact hs.1 b
      · exact absurd (hall b) hb
  · simp only [setSafe, Table.get_tabulate]
    split
    · exact .inl rfl
    · exact .inr (.inr rfl)
  · have hholds : holds (setSafe safe s) l (bankResource (bankOf c)) = true := by
      simp only [holds, State.holder, setSafe, hheld, beq_self_eq_true]
    rw [hholds, Bool.and_true, List.contains_eq_mem, decide_eq_false_iff_not] at hlost
    simp only [setSafe, Table.get_tabulate, if_neg hlost]
    rcases hsafe with he | hall
    · exact ⟨hheld, he⟩
    · exact absurd (hall _) hlost

theorem retained_keeps_dualControl {rs : List (Fin 9)} (hs : DualControl s) : DualControl (retainAll rs s) := by
  have := retainAll_keeps_dualControl (rs := rs) (safe := s.claims.safe) hs (.inl rfl)
  exact this

theorem bankResource_mem_banks (b : Fin 4) : bankResource b ∈ banks := by
  revert b
  decide

theorem lockSafe_keeps_dualControl (hs : DualControl s) : DualControl (lockSafe s) :=
  .of_kept raiseTimes_quiet.kept (retainAll_keeps_dualControl hs (.inr bankResource_mem_banks))

/-- R118: an opening of the safe. -/
theorem openSafe_keeps_dualControl (hs : DualControl s) : DualControl (setSafe .opened s) := by
  obtain ⟨_, hwaiting, hcosigners, hothers, hunlocked⟩ := hs
  exact ⟨fun _ _ => rfl, hwaiting, hcosigners, hothers, fun c op ms h => ⟨rfl, (hunlocked c op ms h).2⟩⟩

theorem yieldHeld_keeps_dualControl (hs : DualControl s) (hheld : holds s l r = true) :
    DualControl (yieldHeld l r s) := by
  rw [yieldHeld_eq]
  have hholder : ∃ k, s.claims.resources.get r = .held l k := by
    unfold holds State.holder at hheld
    split at hheld
    next h k he => exact ⟨k, by rw [he, eq_of_beq hheld]⟩
    next => cases hheld
  obtain ⟨k, hk⟩ := hholder
  refine hs.relockedOnce (fun b => ?_) (fun x => ?_) (fun c l' x hx hlost => ?_)
  · simp only [Table.get_set]
    split
    next hb => exact fun _ => hs.1 b (by rw [hb, hk]; exact Holder.noConfusion)
    next => exact hs.1 b
  · simp only [Table.get_set]
    split
    · exact .inr (.inl rfl)
    · exact .inr (.inr rfl)
  · have hother : bankResource (bankOf c) ≠ r := fun he => by
      rw [he, hk] at hx
      cases hx
      rw [he] at hlost
      simp at hlost
    exact ⟨by rw [Table.get_set_ne _ _ hother]; exact hx, rfl⟩

theorem asBank_isSome {r : Fin 9} : (asBank r).isSome = true ↔ r.val < 4 := by
  unfold asBank index
  split <;> simp_all

section
variable (hs : DualControl s)
include hs

theorem ownSafeState_keeps_dualControl {v : Nat} : DualControl (ownSafeState v s).state := by
  unfold ownSafeState
  split
  · exact hs
  · exact openSafe_keeps_dualControl hs
  · rw [withSummary_state]
    split
    · exact hs
    · exact lockSafe_keeps_dualControl hs

theorem ownRetain_keeps_dualControl {o : Option Nat} : DualControl (ownRetain o s).state := by
  unfold ownRetain; repeat' split
  · exact retained_keeps_dualControl hs
  · exact hs
  · exact retained_keeps_dualControl hs

/-- R116, R120: a bank leaves RETAINED with the safe OPEN alone. -/
theorem ownRelinquish_keeps_dualControl {n : Nat} : DualControl (ownRelinquish n s).state := by
  unfold ownRelinquish; repeat' split
  · exact hs
  · exact hs
  · exact hs
  next r _ hretained hopen =>
    rw [not_not] at hretained
    refine hs.setHolder (fun hr _ => ?_) (fun l ms h => by cases h) (fun l k h => by cases h)
      (fun l k h => ?_)
    · rw [asBank_isSome, not_and] at hopen
      have hne := hopen hr
      cases hsafe : s.claims.safe
      · exact absurd hsafe hne
      · rfl
    · rw [State.holder] at hretained
      rw [hretained] at h
      cases h

/-- R121: a claimed bank waits for its cosign, another resource is held. -/
theorem ownClaim_keeps_dualControl {n : Nat} : DualControl (ownClaim l n s).state := by
  unfold ownClaim
  split
  · exact hs
  next r _ =>
    split
    · exact hs
    next hfree =>
      rw [State.holder] at hfree
      rw [withSummary_state]
      refine hs.setHolder (fun hr _ => ?_) (fun k ms h => ?_) (fun k x h => ?_) (fun k x h => ?_)
      · exact hs.1 ⟨r.val, hr⟩ (by rw [show bankResource ⟨r.val, hr⟩ = r from rfl, hfree]; exact Holder.noConfusion)
      · unfold claimed at h
        split at h
        next hbank => exact asBank_isSome.mp hbank
        next => cases h
      · unfold claimed at h
        split at h
        next => cases h
        next hbank =>
          rw [asBank_isSome] at hbank
          cases h
          exact ⟨iff_of_false Bool.false_ne_true hbank, Option.some_ne_none _ ∘ Eq.symm⟩
      · rw [hfree] at h; cases h
    · exact hs
    · exact hs

/-- R122: a cosign by another link than the claimant. -/
theorem ownCosign_keeps_dualControl {n : Nat} : DualControl (ownCosign l n s).state := by
  unfold ownCosign
  split
  · exact hs
  next r _ =>
    split
    next claimant ms hwait =>
      rw [State.holder] at hwait
      split
      · exact hs
      next hother =>
        rw [withSummary_state]
        have hbank : r.val < 4 := hs.2.1 r claimant ms hwait
        refine hs.setHolder (fun hr _ => ?_) (fun k ms h => by cases h) (fun k x h => ?_) (fun k x h => ?_)
        · exact hs.1 ⟨r.val, hr⟩ (by rw [show bankResource ⟨r.val, hr⟩ = r from rfl, hwait]; exact Holder.noConfusion)
        · cases h
          exact ⟨⟨fun _ => hbank, fun _ => rfl⟩, fun h => hother (Option.some.inj h).symm⟩
        · rw [hwait] at h; cases h
    · exact hs

/-- R123, R124: a cosign given up in the wait frees the bank. -/
theorem freed_keeps_dualControl {claimant : LinkId} {ms : Nat}
    (hwait : s.claims.resources.get r = .cosignWait claimant ms) : DualControl (setHolder r .free s) := by
  refine hs.setHolder (fun hr _ => ?_) (fun k ms h => by cases h) (fun k x h => by cases h) (fun k x h => ?_)
  · exact hs.1 ⟨r.val, hr⟩ (by rw [show bankResource ⟨r.val, hr⟩ = r from rfl, hwait]; exact Holder.noConfusion)
  · rw [hwait] at h; cases h

theorem ownYield_keeps_dualControl {n : Nat} : DualControl (ownYield l n s).state := by
  unfold ownYield
  split
  · exact hs
  next r _ =>
    split
    next h k hheld =>
      split
      next hl =>
        subst hl
        exact yieldHeld_keeps_dualControl hs (by rw [holds, hheld]; exact beq_self_eq_true h)
      · exact hs
    next h ms hwait =>
      split
      · exact freed_keeps_dualControl hs hwait
      · exact hs
    · exact hs

theorem lapse_keeps_dualControl {b : Fin 4} : DualControl (lapse b s) := by
  unfold lapse
  split
  next hwait => exact .of_kept raise_quiet.kept (freed_keeps_dualControl hs hwait)
  · exact hs

/-- R139: a door UNLOCKED for a command of the link that holds its bank. -/
theorem unlockFor_keeps_dualControl {work : DoorWork} {c : CompartmentId} (hwork : work ≠ .inventory)
    (hgate : bankRefusal s l c = none) : DualControl (unlockFor l work c s) := by
  unfold bankRefusal at hgate
  split at hgate
  · cases hgate
  next hsafe =>
    split at hgate
    next hholds =>
      have hopened : s.claims.safe = .opened := by
        cases h : s.claims.safe
        · exact absurd h hsafe
        · rfl
      have hheld : ∃ k, s.claims.resources.get (bankResource (bankOf c)) = .held l k := by
        unfold holds State.holder at hholds
        split at hholds
        next h k he => exact ⟨k, by rw [he, eq_of_beq hholds]⟩
        next => cases hholds
      obtain ⟨k, hk⟩ := hheld
      obtain ⟨hbanks, hwaiting, hcosigners, hothers, hunlocked⟩ := hs
      refine ⟨hbanks, hwaiting, hcosigners, hothers, fun a op ms hdoor => ?_⟩
      by_cases ha : a = c
      · subst ha
        rw [unlockFor, setDoor_door_self] at hdoor
        cases hdoor
        exact ⟨hopened, l, work, .deliver, k, rfl, hwork, hk⟩
      · simp only [unlockFor, setDoor, modifyBox, Table.get_set_ne _ _ ha] at hdoor
        exact hunlocked a op ms hdoor
    · cases hgate

omit hs in
/-- A detection reads and writes no claims. -/
theorem bankRefusal_detect {g : Gate} {c : CompartmentId} {affected : List Nat} :
    bankRefusal (detect l g c affected s) l c = bankRefusal s l c := by
  unfold bankRefusal holds State.holder
  rw [(detect_quiet (s := s)).claims]

/-- R146, R147: a door command with access to the bank, refused or accepted. -/
theorem doorCommand_keeps_dualControl {g : Gate} {n : Nat} {listOk : Bool} {accept : CompartmentId → Answer}
    (h : ∀ c, bankRefusal s l c = none → DualControl (accept c).state) :
    DualControl (doorCommand l g true n listOk accept s).state := by
  unfold doorCommand; repeat' split
  · exact hs
  · exact hs
  · exact hs
  · exact .of_kept raise_quiet.kept hs
  · exact hs
  · exact hs
  · exact hs
  next hgate _ _ => exact h _ hgate

theorem ownOpenDoor_keeps_dualControl {n : Nat} : DualControl (ownOpenDoor l n s).state :=
  doorCommand_keeps_dualControl hs fun _ hgate =>
    unlockFor_keeps_dualControl (.of_kept detect_quiet.kept hs) DoorWork.noConfusion
      (bankRefusal_detect.trans hgate)

theorem ownHandOut_keeps_dualControl {n : Nat} {named : List Nat} : DualControl (ownHandOut l n named s).state := by
  refine doorCommand_keeps_dualControl hs fun c hgate => ?_
  unfold acceptHandOut
  split
  · exact hs
  · exact unlockFor_keeps_dualControl (.of_kept detect_quiet.kept hs) DoorWork.noConfusion
      (bankRefusal_detect.trans hgate)

theorem tick_keeps_dualControl : DualControl (tick s) := by
  refine .of_kept walkOn_quiet.kept ?_
  obtain ⟨hbanks, hwaiting, hcosigners, hothers, hunlocked⟩ := hs
  have hres : ∀ r, (timersOn s).claims.resources.get r = (s.claims.resources.get r).ticked := fun r => by
    simp only [timersOn, Table.get_map]
  have hheld : ∀ r l k, (timersOn s).claims.resources.get r = .held l k → s.claims.resources.get r = .held l k := by
    intro r l k h
    rw [hres] at h
    cases hr : s.claims.resources.get r <;> rw [hr] at h <;> cases h
    rfl
  refine ⟨fun b hb => hbanks b fun h => hb (by rw [hres, h]; rfl), fun r l ms h => ?_,
    fun r l k h => hcosigners r l k (hheld r l k h), fun r l k h => hothers r l k (hheld r l (some k) h),
    fun c op ms h => ?_⟩
  · rw [hres] at h
    cases hr : s.claims.resources.get r <;> rw [hr] at h <;> cases h
    exact hwaiting r _ _ hr
  · simp only [timersOn, Table.get_map] at h
    obtain ⟨ms', h'⟩ := Door.ticked_eq_unlocked h
    obtain ⟨hopened, l, w, d, k, hop, hw, hk⟩ := hunlocked c op ms' h'
    exact ⟨hopened, l, w, d, k, hop, hw, by rw [hres, hk]; rfl⟩

theorem fallLine_keeps_dualControl : DualControl (fallLine l s) :=
  retained_keeps_dualControl (.of_kept (dropWork_quiet.trans modifyLink_quiet_of_eq).kept hs)

end

/-- R157: no door is UNLOCKED at a start. -/
theorem doorAtStart_ne_unlocked {isOpen : Bool} {n ms : Nat} {op : DoorOp} :
    doorAtStart isOpen n ≠ .unlocked op ms := by
  unfold doorAtStart
  split <;> exact Door.noConfusion

theorem start_dualControl {lines : StartLines} {valid : Bool} :
    DualControl (if valid then startValid lines s else startInvalid lines s) := by
  split
  · refine .of_initial ?_ fun c op ms => ?_
    · simp only [startValid, raiseIf, arbitrate_claims, raiseTimes_claims, raise_claims, withLowMarks, restarted]
    · simp only [startValid, raiseIf, arbitrate_cabinet, raiseTimes_cabinet, raise_cabinet, withLowMarks, restarted,
        boxesAtStart, Table.get_tabulate]
      exact doorAtStart_ne_unlocked
  · refine .of_initial rfl fun c op ms => ?_
    simp only [startInvalid, raise_cabinet, boxesAtStart, Table.get_tabulate]
    exact doorAtStart_ne_unlocked

/-! ## Every step -/

theorem owner_keeps_dualControl {i : Instr} (hi : .claims ∈ touched i) (hs : DualControl s) :
    DualControl (ownerOf i s).state := by
  cases i <;> simp [touched] at hi
  case safeState => exact ownSafeState_keeps_dualControl hs
  case retain => exact ownRetain_keeps_dualControl hs
  case relinquish => exact ownRelinquish_keeps_dualControl hs
  case cosign => exact ownCosign_keeps_dualControl hs
  case claim => exact ownClaim_keeps_dualControl hs
  case yieldResource => exact ownYield_keeps_dualControl hs
  case handOut => exact ownHandOut_keeps_dualControl hs
  case openDoor => exact ownOpenDoor_keeps_dualControl hs
  all_goals exact hs

theorem event_keeps_dualControl {i : Instr} (hi : .claims ∈ touched i) (hc : commandOf i = none)
    (hs : DualControl s) (h : exec i s = .next t) : DualControl t := by
  cases i <;> simp [touched] at hi <;> cases hc <;> cases h
  case powerUp => exact start_dualControl
  case resetN => exact start_dualControl
  case cosignWindowExpiry => exact lapse_keeps_dualControl hs
  case presentLineFall => exact fallLine_keeps_dualControl hs

/-- R116, R117, R122, R139: every step keeps dual control. -/
theorem step_keeps_dualControl (hs : DualControl s) (h : step s = .next t) : DualControl t :=
  step_keeps_watched (w := .claims) (by decide) (fun _ _ => .of_kept) (fun _ _ h => h)
    (fun _ => tick_keeps_dualControl) (fun _ _ => owner_keeps_dualControl) (fun _ _ _ => event_keeps_dualControl) hs h

end Sys2Proof.Machine

open Sys2Proof Sys2Proof.Machine

/-- Settles O17: the rows that move the claims keep dual control, and no other row unlocks a door. -/
theorem stepKeepsDualControl : Obligations.StepKeepsDualControl := by
  unfold Obligations.StepKeepsDualControl
  exact fun s t hs h => step_keeps_dualControl hs h

end

section
-- One theorem after another: elaborated side by side, the whole text asks for more threads than the check has memory for.
set_option Elab.async false
/-! What a link's phase says of its results and of its long command (R192, R193, R194, R196). -/

namespace Sys2Proof.Machine

variable {s t : State} {l : LinkId} {tag : Nat} {c : Command} {k : Link}

/-! ## One link -/

theorem Link.phaseHolds_of_ready (hphase : k.phase = .ready) :
    k.PhaseHolds ↔ k.held = [] ∧ ∀ c, k.long = some c → c.delivery = .discard := by
  rw [Link.PhaseHolds, hphase]

theorem Link.phaseHolds_of_executing (hphase : k.phase = .executing) :
    k.PhaseHolds ↔ k.held = [] ∧ ∃ c, k.long = some c ∧ c.delivery = .deliver := by
  rw [Link.PhaseHolds, hphase]

theorem Link.phaseHolds_of_result (hphase : k.phase = .result) :
    k.PhaseHolds ↔ k.held ≠ [] ∧ ∀ c, k.long = some c → c.delivery = .discard := by
  rw [Link.PhaseHolds, hphase]

/-- A link that waits for no result of a long command: its phase follows from what it holds. -/
theorem Link.phaseHolds_of_held (hphase : k.phase = if k.held.isEmpty then .ready else .result)
    (hlong : ∀ c, k.long = some c → c.delivery = .discard) : k.PhaseHolds := by
  cases hheld : k.held with
  | nil =>
    rw [hheld] at hphase
    exact (Link.phaseHolds_of_ready hphase).mpr ⟨hheld, hlong⟩
  | cons r rs =>
    rw [hheld] at hphase
    refine (Link.phaseHolds_of_result hphase).mpr ⟨?_, hlong⟩
    rw [hheld]
    exact List.cons_ne_nil r rs

/-- R193: a READY link that a command ends on. -/
theorem Link.PhaseHolds.completed {code : CompletionCode} {results : List ResultRecord} {fresh : Bool}
    (hready : k.phase = .ready) (hk : k.PhaseHolds) : (k.completed tag code results fresh).PhaseHolds :=
  Link.phaseHolds_of_held rfl ((Link.phaseHolds_of_ready hready).mp hk).2

/-- R192: a READY link that a long command starts on. -/
theorem Link.PhaseHolds.started (hready : k.phase = .ready) (hk : k.PhaseHolds) :
    Link.PhaseHolds { k with phase := .executing, long := some ⟨c, tag, .deliver⟩ } :=
  (Link.phaseHolds_of_executing rfl).mpr ⟨((Link.phaseHolds_of_ready hready).mp hk).1, _, rfl, rfl⟩

/-- R194: a link with results that COLLECT takes some of, or DISCARD drops. -/
theorem Link.PhaseHolds.taken {act : Link → Link} (hact : act = Link.collected tag ∨ act = Link.discarded tag)
    (hresult : k.phase = .result) (hk : k.PhaseHolds) : (act k).PhaseHolds := by
  obtain ⟨_, hlong⟩ := (Link.phaseHolds_of_result hresult).mp hk
  rcases hact with rfl | rfl
  · exact Link.phaseHolds_of_held rfl hlong
  · exact Link.phaseHolds_of_held rfl hlong

theorem Link.Traffic.phaseHolds {f : Link → Link} (hf : Link.Traffic f) (hk : k.PhaseHolds) : (f k).PhaseHolds :=
  (hf.kept k hk).1

/-! ## Every link -/

theorem LinkPhases.of_kept (h : Kept .links s t) (hs : LinkPhases s) : LinkPhases t := fun l => (h l (hs l)).1

theorem LinkPhases.modifyLink {f : Link → Link} (hf : (f (s.links.get l)).PhaseHolds) (hs : LinkPhases s) :
    LinkPhases (modifyLink l f s) := by
  intro i
  by_cases hi : i = l
  · rw [hi, modifyLink_get_self]
    exact hf
  · rw [modifyLink_get_ne hi]
    exact hs i

theorem LinkPhases.keptByTraffic : KeptByTraffic LinkPhases := fun _ _ _ hf hs => hs.modifyLink (hf.phaseHolds (hs _))

/-- R193: an answer given to a READY link. -/
theorem LinkPhases.applied {a : Answer} (hready : (a.state.links.get l).phase = .ready) (hs : LinkPhases a.state) :
    LinkPhases (a.applied l tag c) := by
  cases a with
  | done => exact LinkPhases.modifyLink (.completed hready (hs l)) hs
  | started => exact LinkPhases.modifyLink (.started hready (hs l)) hs

theorem takeResult_keeps_linkPhases {act : Link → Link} (hact : act = Link.collected tag ∨ act = Link.discarded tag)
    (hs : LinkPhases s) : LinkPhases (takeResult l tag c act s) := by
  unfold takeResult
  split
  · refine hs.modifyLink ?_
    have hreceived := Link.Traffic.receivedWhole.phaseHolds (hs l)
    dsimp only
    split
    · exact Link.Traffic.refusedWith.phaseHolds hreceived
    · exact Link.Traffic.refusedWith.phaseHolds hreceived
    next hresult => exact .taken hact hresult hreceived
  · exact hs

theorem links_notMem_touched {i : Instr} (hi : (commandOf i).isSome) : .links ∉ touched i := by
  cases i <;> first | exact absurd hi Bool.false_ne_true | simp [touched]

theorem command_keeps_linkPhases {i : Instr} (hi : (commandOf i).isSome) (hs : LinkPhases s)
    (h : exec i s = .next t) : LinkPhases t := by
  obtain ⟨⟨l, tag, c⟩, hc⟩ := Option.isSome_iff_exists.mp hi
  by_cases hresult : c = .collect ∨ c = .discard
  · obtain ⟨act, hact, hexec⟩ := exec_collect_or_discard (s := s) hc hresult
    cases hexec.symm.trans h
    exact takeResult_keeps_linkPhases hact hs
  · rw [not_or] at hresult
    cases (exec_command hc hresult.1 hresult.2).symm.trans h
    rcases takeCommand_cases l tag c (roleOf i) (formOf i) (ownerOf i) s with he | ⟨f, hf, he⟩ | ⟨hready, a, ha, he⟩
    · rwa [he]
    · rw [he]
      exact LinkPhases.keptByTraffic l f s hf hs
    · rw [he]
      have hreceived : LinkPhases (received l s) := LinkPhases.keptByTraffic l _ s .receivedWhole hs
      have hready' : ((received l s).links.get l).phase = .ready := by
        rw [received, modifyLink_get_self]
        exact hready
      have hkept : Kept .links (received l s) (ownerOf i (received l s)).state := owner_kept i (links_notMem_touched hi)
      rcases ha with rfl | rfl
      · exact .applied ((hkept l (hreceived l)).2 hready') (.of_kept hkept hreceived)
      · exact .applied hready' hreceived

/-- R157: every link is READY at a start, with nothing held and no long command. -/
theorem linkPhases_atStart {lines : StartLines} (h : s.links = linksAtStart lines) : LinkPhases s := by
  intro l
  rw [h, linksAtStart, Table.get_tabulate]
  exact (Link.phaseHolds_of_ready rfl).mpr ⟨rfl, fun c hc => by cases hc⟩

theorem start_linkPhases {lines : StartLines} {valid : Bool} :
    LinkPhases (if valid then startValid lines s else startInvalid lines s) := by
  split
  · refine .of_kept (Quiet.trans raise_quiet <| raiseTimes_quiet.trans <| raiseTimes_quiet.trans <|
      raiseTimes_quiet.trans arbitrate_quiet).kept (linkPhases_atStart (lines := lines) rfl)
  · exact .of_kept (Quiet.trans raise_quiet raise_quiet).kept (linkPhases_atStart (lines := lines) rfl)

/-- R157: the rows that move the links otherwise than an owner does are the starts. -/
theorem linkPhases_of_touched {i : Instr} (hi : .links ∈ touched i) (h : exec i s = .next t) : LinkPhases t := by
  cases i <;> simp [touched] at hi <;> cases h
  case powerUp => exact start_linkPhases
  case resetN => exact start_linkPhases

theorem event_keeps_linkPhases {i : Instr} (hi : commandOf i = none) (hf : ∀ l chars, i ≠ .frameReceived l chars)
    (hs : LinkPhases s) (h : exec i s = .next t) : LinkPhases t := by
  by_cases hstart : .links ∈ touched i
  · exact linkPhases_of_touched hstart h
  · exact .of_kept (event_kept hi hf hstart h) hs

end Sys2Proof.Machine

open Sys2Proof Sys2Proof.Machine

/-- Settles O18: frames, answers and results keep each link's phase true; no other operation breaks it. -/
theorem stepKeepsLinkPhases : Obligations.StepKeepsLinkPhases := by
  unfold Obligations.StepKeepsLinkPhases
  refine fun s t hs h => step_keeps (fun _ _ h => h) (fun _ => .of_kept (tick_kept (by decide))) ?_ hs h
  exact fun i s t hs h => exec_keeps LinkPhases.keptByTraffic (fun _ _ _ => command_keeps_linkPhases)
    (fun _ _ _ => event_keeps_linkPhases) hs h

end

section
-- One theorem after another: elaborated side by side, the whole text asks for more threads than the check has memory for.
set_option Elab.async false
/-! The starts: reset values, the power returned with a valid store and with a lost one (R157, R158, R169, R170). -/

namespace Sys2Proof.Machine

variable {s : State} {lines : StartLines}

/-! ## The reset state -/

theorem reset_capacityKept : CapacityKept State.reset := ⟨rfl, by decide⟩

theorem reset_dualControl : DualControl State.reset :=
  .of_initial rfl fun c op ms h => by
    rw [State.reset, Cabinet.initial, Table.get_tabulate] at h
    cases h

theorem reset_linkPhases : LinkPhases State.reset := fun l => by
  rw [State.reset, Table.get_fill]
  exact (Link.phaseHolds_of_ready rfl).mpr ⟨rfl, fun c hc => by cases hc⟩

/-! ## The notices of a start -/

/-- A notice raised where a condition holds. -/
def Link.raisedIf (b : Bool) (n : Notice) (k : Link) : Link := if b then k.raised n 1 else k

theorem raise_links {n : Notice} : (raise n s).links = s.links.map (Link.raised n 1) := rfl

theorem raiseIf_links {b : Bool} {n : Notice} : (raiseIf b n s).links = s.links.map (Link.raisedIf b n) := by
  cases b with
  | true => rfl
  | false => exact Table.ext_get fun l => by rw [Table.get_map]; rfl

/-- R166, R169: a start without a valid store leaves on every link the notices of the reset state. -/
theorem initial_storeLost {present low : Bool} :
    ((Link.initial present low).raised .storeLost 1).raised .clockInvalid 1 =
      { Link.atReset with present := present, receiver := if low then .lineLow else .hunting } := rfl

/-- R166, R170: the notices that a start with a valid store leaves on every link. -/
theorem initial_powerReturn {present low bad interrupted : Bool} :
    Link.raisedIf interrupted .stationFault (Link.raisedIf interrupted .stranded
        (Link.raisedIf bad .clockInvalid ((Link.initial present low).raised .powerReturn 1))) =
      { Link.initial present low with
        notices := .tabulate fun i =>
          if i = Notice.powerReturn.cell ∨ (i = Notice.clockInvalid.cell ∧ bad = true) ∨
              ((i = Notice.stranded.cell ∨ i = Notice.stationFault.cell) ∧ interrupted = true) then
            ⟨true, true, 1⟩
          else ⟨true, false, 0⟩ } := by
  cases bad <;> cases interrupted <;> rfl

/-! ## A start without a valid store -/

theorem exec_powerUp {battOk : Bool} : exec (.powerUp battOk lines) s = .next (powerUp battOk lines s) := rfl

theorem exec_resetN : exec (.resetN lines) s = .next (reset lines s) := rfl

theorem powerUp_invalid {battOk : Bool} (h : battOk = false ∨ s.store.valid = false) :
    powerUp battOk lines s = startInvalid lines s :=
  if_neg (by rw [Bool.and_eq_true]; rintro ⟨hbatt, hvalid⟩; rcases h with h | h <;> simp_all)

theorem reset_invalid (h : s.store.valid = false) : Machine.reset lines s = startInvalid lines s :=
  if_neg (by rw [h]; exact Bool.false_ne_true)

theorem startInvalid_box {c : CompartmentId} :
    (startInvalid lines s).cabinet.compartments.get c =
      { State.reset.cabinet.compartments.get c with
        door := if lines.doorsOpen.getLsbD c.val then .opened false none (some 180000) else .locked } := by
  rw [startInvalid, raise_cabinet, raise_cabinet, boxesAtStart, Table.get_tabulate]
  rfl

theorem startInvalid_link {l : LinkId} :
    (startInvalid lines s).links.get l =
      { State.reset.links.get l with
        present := lines.present.getLsbD l.val
        receiver :=
          if lines.present.getLsbD l.val && lines.receiveLow.getLsbD l.val then .lineLow else .hunting } := by
  rw [startInvalid, raise_get, raise_get, State.reset, Table.get_fill, linksAtStart, Table.get_tabulate,
    initial_storeLost]

/-! ## A start with a valid store -/

/-- The state a start with a valid store leaves, but for the grant of the station. -/
def startedValid (lines : StartLines) (s : State) : State :=
  let t := withLowMarks (restarted lines s)
  let interrupted := s.register.records.any Record.interrupted
  raiseIf interrupted .stationFault <| raiseIf interrupted .stranded <|
    raiseIf (!t.clock.isValid) .clockInvalid <| raise .powerReturn t

theorem powerUp_valid (h : s.store.valid = true) : powerUp true lines s = arbitrate (startedValid lines s) :=
  if_pos h

theorem reset_valid (h : s.store.valid = true) : Machine.reset lines s = arbitrate (startedValid lines s) := if_pos h

theorem raiseIf_eq {b : Bool} {n : Notice} : raiseIf b n s = { s with links := (raiseIf b n s).links } := raiseTimes_eq

/-- The notices of a start change the links alone. -/
theorem startedValid_eq :
    startedValid lines s =
      { withLowMarks (restarted lines s) with links := (startedValid lines s).links } := by
  rw [startedValid]
  dsimp only
  rw [raiseIf_eq, raiseIf_eq (n := .stranded), raiseIf_eq (n := .clockInvalid)]
  rfl

theorem startedValid_freePlaces {k : BoxClass} :
    freePlaces (startedValid lines s) k false = freePlaces (restarted lines s) k false := by
  rw [startedValid_eq]
  exact freePlaces_congr rfl rfl rfl rfl

theorem startedValid_validity :
    (startedValid lines s).clock.validity =
      (s.clock.restarted s.store.params.cutoff lines.downSeconds).validity := by
  rw [startedValid_eq]
  rfl

theorem startedValid_links :
    (startedValid lines s).links =
      .tabulate fun l =>
        { Link.initial (lines.present.getLsbD l.val)
            (lines.present.getLsbD l.val && lines.receiveLow.getLsbD l.val) with
          notices := .tabulate fun i =>
            if i = Notice.powerReturn.cell ∨
                (i = Notice.clockInvalid.cell ∧ (startedValid lines s).clock.validity ≠ .valid) ∨
                ((i = Notice.stranded.cell ∨ i = Notice.stationFault.cell) ∧
                  s.register.records.any Record.interrupted = true) then
              ⟨true, true, 1⟩
            else ⟨true, false, 0⟩ } := by
  have hbad : (startedValid lines s).clock.validity ≠ .valid ↔
      (!(withLowMarks (restarted lines s)).clock.isValid) = true := by
    rw [startedValid_validity, Bool.not_eq_true', ← Bool.not_eq_true, clock_isValid_iff]
    rfl
  refine Table.ext_get fun l => ?_
  have hlink : (withLowMarks (restarted lines s)).links.get l = Link.initial _ _ := Table.get_tabulate ..
  simp only [hbad, Table.get_tabulate]
  simp only [startedValid, raiseIf_links, raise_links, Table.get_map]
  rw [hlink, initial_powerReturn]

theorem interrupted_eq : Record.interrupted = fun r => r.state == .checking || r.state == .routing := rfl

/-- R170: a bag under way at the failure is STRANDED. -/
theorem restarted_records :
    s.register.restarted.records =
      s.register.records.map fun r =>
        if r.state = .checking ∨ r.state = .routing then { r with state := .stranded, compartment := none } else r := by
  refine List.map_congr_left fun r _ => ?_
  simp only [Record.interrupted, Record.stranded, Bool.or_eq_true, beq_iff_eq]

/-! ## The grant at a start -/

theorem grant_rules {src : Source} : (grant src s).station.rules = s.station.rules := by
  unfold grant
  split
  · rfl
  · cases src <;> rfl

theorem arbitrate_rules : (arbitrate s).station.rules = s.station.rules := by
  unfold arbitrate; repeat' split
  · exact grant_rules
  · rfl
  · rfl

/-- R32: no bag waits at any of the throats or on the service list. -/
theorem chosenRequester_of_no_queue (hservice : s.station.service = [])
    (hqueue : ∀ c : ChuteId, (s.chutes.get c).queue = []) : chosenRequester s = none := by
  have hready : ∀ c, throatReady s c = false := fun c => by
    rw [throatReady, State.chute, hqueue]
    exact Bool.and_false _
  rw [chosenRequester, hservice, List.isEmpty_nil, if_pos rfl,
    List.find?_eq_none.mpr fun c _ => by rw [hready]; exact Bool.false_ne_true]
  rfl

theorem startedValid_station :
    (startedValid lines s).station =
      { s.station with
        state := if s.register.records.any Record.interrupted then .fault else .idle, lastServed := 3 } := by
  rw [startedValid_eq]
  rfl

theorem startedValid_chute {c : ChuteId} :
    (startedValid lines s).chutes.get c = { s.chutes.get c with state := .idle, hold := none } := by
  rw [startedValid_eq, withLowMarks, restarted, Table.get_map]

theorem arbitrate_startedValid
    (h : s.register.records.any Record.interrupted = true ∨
      (s.station.service = [] ∧ ∀ c : ChuteId, (s.chutes.get c).queue = [])) :
    arbitrate (startedValid lines s) = startedValid lines s := by
  rcases h with hinterrupted | ⟨hservice, hqueue⟩
  · exact arbitrate_of_busy (by rw [startedValid_station, hinterrupted]; exact StationState.noConfusion)
  · refine arbitrate_of_none (chosenRequester_of_no_queue ?_ fun c => ?_)
    · rw [startedValid_station]
      exact hservice
    · rw [startedValid_chute]
      exact hqueue c

/-! ## The cutoff missed -/

/-- R170: the seconds to the next cutoff. -/
theorem secondsToCutoff_eq {cutoff t : Nat} :
    secondsToCutoff cutoff t = if t < cutoff then cutoff - t else cutoff + 86400 - t := rfl

/-- R170: a cutoff falls in the time down exactly when the time to the next one is not longer. -/
theorem secondsToCutoff_le_iff {cutoff t down : Nat} (ht : t ≤ 86399) (hcutoff : cutoff ≤ 86399) :
    secondsToCutoff cutoff t ≤ down ↔ ∃ k, 1 ≤ k ∧ k ≤ down ∧ (t + k) % 86400 = cutoff := by
  rw [secondsToCutoff_eq]
  constructor
  · intro h
    refine ⟨_, ?_, h, ?_⟩
    · split <;> omega
    · split <;> omega
  · rintro ⟨k, hk, hdown, hmod⟩
    split <;> omega

theorem Clock.restarted_validity {k : Clock} {cutoff down : Nat} (h : k.validity = .valid) :
    (k.restarted cutoff down).validity =
      if secondsToCutoff cutoff k.seconds ≤ down then .invalid .cutoffMissed else .valid := by
  simp only [Clock.restarted, h]

theorem Clock.restarted_validity_of_invalid {k : Clock} {cutoff down : Nat} (h : k.validity ≠ .valid) :
    (k.restarted cutoff down).validity = k.validity := by
  unfold Clock.restarted
  cases hk : k.validity with
  | valid => exact absurd hk h
  | invalid cause => rfl

end Sys2Proof.Machine

open Sys2Proof Sys2Proof.Machine

/-- Settles O16: each invariant of the reset state, part by part. -/
theorem resetIsSafe : Obligations.ResetIsSafe := by
  unfold Obligations.ResetIsSafe
  obtain ⟨hrange, hnodup, horder⟩ : Listed True State.reset.register := .of_nil rfl rfl
  exact ⟨reset_dualControl, reset_linkPhases, reset_capacityKept, .of_initial rfl, hrange, hnodup,
    .of_cleared rfl rfl, horder trivial⟩

/-- Settles O22: with the battery or the store lost, both starts are the one start at reset values. -/
theorem invalidStartGivesResetValues : Obligations.InvalidStartGivesResetValues := by
  unfold Obligations.InvalidStartGivesResetValues
  intro battOk lines s hinvalid
  refine ⟨startInvalid lines s, ?_, fun hstore => ?_, rfl, rfl, fun c => startInvalid_box, fun l => startInvalid_link⟩
  · rw [exec_powerUp, powerUp_invalid hinvalid]
  · rw [exec_resetN, reset_invalid hstore]

/-- Settles O23: the start is the restarted state with its notices, then one grant of the station. -/
theorem validStartKeepsTheStore : Obligations.ValidStartKeepsTheStore := by
  unfold Obligations.ValidStartKeepsTheStore
  intro lines s hvalid
  refine ⟨startedValid lines s, ?_, ?_, ?_, fun hclock => ?_, arbitrate_startedValid, arbitrate_eq, ?_, fun c => ?_⟩
  · rw [exec_powerUp, powerUp_valid hvalid]
  · rw [exec_resetN, reset_valid hvalid]
  · rw [startedValid_freePlaces, startedValid_freePlaces, ← interrupted_eq, ← restarted_records]
    conv_lhs => rw [startedValid_eq]
    rw [startedValid_links, startedValid_validity]
    rfl
  · rw [startedValid_validity, Clock.restarted_validity_of_invalid hclock]
  · rw [arbitrate_rules, startedValid_station]
  · rw [arbitrate_chute, startedValid_chute]

/-- Settles O24: a cutoff falls in the time down exactly when the time to it is not longer. -/
theorem startTestsTheMissedCutoff : Obligations.StartTestsTheMissedCutoff := by
  unfold Obligations.StartTestsTheMissedCutoff
  intro lines s hvalid hclock hrange
  obtain ⟨hseconds, _, hcutoff⟩ := hrange
  have hiff := secondsToCutoff_le_iff (down := lines.downSeconds) hseconds hcutoff
  have hvalidity : (arbitrate (startedValid lines s)).clock.validity = _ :=
    (congrArg Clock.validity arbitrate_clock).trans (startedValid_validity.trans (Clock.restarted_validity hclock))
  refine ⟨arbitrate (startedValid lines s), by rw [exec_powerUp, powerUp_valid hvalid], ?_, ?_, fun hmissed => ?_,
    fun hkept => ?_⟩
  · rw [arbitrate_clock, startedValid_eq]
    rfl
  · rw [arbitrate_clock, startedValid_eq]
    rfl
  · rw [hvalidity, if_pos (hiff.mpr hmissed)]
  · rw [hvalidity, if_neg]
    rw [hiff]
    rintro ⟨k, hk, hdown, hmod⟩
    exact hkept k hk hdown hmod

end

section
-- One theorem after another: elaborated side by side, the whole text asks for more threads than the check has memory for.
set_option Elab.async false
/-! The taking of a command's frame by phase and role, and the results of a link (R192 to R195). -/

namespace Sys2Proof.Machine

variable {s : State} {i : Instr} {l : LinkId} {tag : Nat} {c : Command} {act : Link → Link}

/-! ## COLLECT and DISCARD -/

theorem takeResult_deaf (h : (s.links.get l).hears = false) : takeResult l tag c act s = s :=
  if_neg (by rw [State.link, h]; exact Bool.false_ne_true)

/-- R194: COLLECT and DISCARD to a link that hears, by its phase. -/
theorem takeResult_eq_withLink (h : TakesFrames s l) :
    takeResult l tag c act s =
      withLink l
        (match (s.links.get l).phase with
        | .executing => (s.links.get l).receivedWhole.refusedWith tag .executing c.code
        | .ready => (s.links.get l).receivedWhole.refusedWith tag .noResult c.code
        | .result => act (s.links.get l).receivedWhole) s :=
  if_pos h.hears

theorem refusedAt_eq {code : RefusalCode} :
    refusedAt l tag code c s = withLink l ((s.links.get l).receivedWhole.refusedWith tag code c.code) s := rfl

theorem takeResult_executing (h : TakesFrames s l) (hphase : (s.links.get l).phase = .executing) :
    takeResult l tag c act s = refusedAt l tag .executing c s := by
  rw [takeResult_eq_withLink h, hphase, refusedAt_eq]

theorem takeResult_ready (h : ReadyLink s l) : takeResult l tag c act s = refusedAt l tag .noResult c s := by
  rw [takeResult_eq_withLink h.1, h.2, refusedAt_eq]

theorem takeResult_result (h : TakesFrames s l) (hphase : (s.links.get l).phase = .result) :
    takeResult l tag c act s = withLink l (act (s.links.get l).receivedWhole) s := by
  rw [takeResult_eq_withLink h, hphase]

theorem exec_collect : exec (.collect l tag) s = .next (takeResult l tag .collect (Link.collected tag) s) := rfl

theorem exec_discard : exec (.discard l tag) s = .next (takeResult l tag .discard (Link.discarded tag) s) := rfl

theorem doneAt_discarded :
    doneAt l tag .ok [] s = withLink l ((s.links.get l).receivedWhole.discarded tag) s := rfl

/-- R194: the results taken by COLLECT, eight at a time. -/
theorem Link.collected_receivedWhole {k : Link} :
    k.receivedWhole.collected tag =
      { k with
        receiver := .hunting
        counters := k.counters.received
        held := k.held.drop 8
        phase := if k.held.length ≤ 8 then .ready else .result
        queue := k.queue ++ [.result tag (k.held.take 8) (decide (k.held.length ≤ 8))] } := by
  have hrest : (k.held.drop 8).isEmpty = decide (k.held.length ≤ 8) := by
    rw [Bool.eq_iff_iff, List.isEmpty_iff, List.drop_eq_nil_iff, decide_eq_true_iff]
  simp only [Link.collected, Link.receivedWhole, hrest, decide_eq_true_eq, LineCounters.received]

/-! ## The role -/

/-- R190: COLLECT and DISCARD are open to every link. -/
theorem collect_or_discard_allowed (hc : c = .collect ∨ c = .discard) : c.allowed l = true := by
  rcases hc with rfl | rfl
  · revert l; decide
  · revert l; decide

/-- R190: no command runs for a link whose role does not have it. -/
theorem roleOf_of_not_allowed (hi : commandOf i = some (l, tag, c)) (h : c.allowed l = false) : roleOf i = false := by
  by_cases hc : c = .setParameter
  · subst hc
    cases i <;> cases hi
    rw [roleOf, parameterAllowed, h, Bool.false_and]
  · rw [roleOf_eq hi hc, h]

/-! ## Any command row -/

/-- R192: what holds of the taking of a result and of the taking of a command holds of every command row. -/
theorem exec_of_takes {t : State} (hi : commandOf i = some (l, tag, c))
    (hresult : c = .collect ∨ c = .discard → ∀ act, takeResult l tag c act s = t)
    (hcommand : c ≠ .collect → c ≠ .discard → takeCommand l tag c (roleOf i) (formOf i) (ownerOf i) s = t) :
    exec i s = .next t := by
  by_cases hc : c = .collect ∨ c = .discard
  · obtain ⟨act, _, hact⟩ := exec_collect_or_discard (s := s) hi hc
    rw [hact, hresult hc act]
  · obtain ⟨hcollect, hdiscard⟩ := not_or.mp hc
    rw [exec_command hi hcollect hdiscard, hcommand hcollect hdiscard]

end Sys2Proof.Machine

open Sys2Proof Sys2Proof.Machine

/-- Settles O5: phase and role are tested before the body, for COLLECT and DISCARD as for the other rows. -/
theorem linksRefuseByPhaseAndRole : Obligations.LinksRefuseByPhaseAndRole := by
  unfold Obligations.LinksRefuseByPhaseAndRole
  refine fun i l tag c s hi => ⟨fun hl hphase => ?_, fun hl hphase hcollect hdiscard => ?_, fun hl hc => ?_,
    fun hl hrole => ?_, fun hdeaf => ?_⟩
  · exact exec_of_takes hi (fun _ _ => takeResult_executing hl hphase) fun _ _ => takeCommand_executing hl hphase
  · rw [exec_command hi hcollect hdiscard, takeCommand_result hl hphase]
  · exact exec_of_takes hi (fun _ _ => takeResult_ready hl) fun hcollect hdiscard =>
      absurd hc (not_or.mpr ⟨hcollect, hdiscard⟩)
  · exact exec_of_takes hi
      (fun hc => absurd (collect_or_discard_allowed hc) (by rw [hrole]; exact Bool.false_ne_true)) fun _ _ =>
      takeCommand_notForRole hl (roleOf_of_not_allowed hi hrole)
  · exact exec_of_takes hi (fun _ _ => takeResult_deaf (hears_eq_false hdeaf)) fun _ _ =>
      takeCommand_deaf (hears_eq_false hdeaf)

/-- Settles O6: in the phase RESULT the two frames act on the link alone. -/
theorem resultsAreCollectedOrDropped : Obligations.ResultsAreCollectedOrDropped := by
  unfold Obligations.ResultsAreCollectedOrDropped
  refine fun l tag s hl hphase => ⟨?_, ?_⟩
  · rw [exec_collect, takeResult_result hl hphase, Link.collected_receivedWhole]
  · rw [exec_discard, takeResult_result hl hphase, doneAt_discarded]

end

section
-- One theorem after another: elaborated side by side, the whole text asks for more threads than the check has memory for.
set_option Elab.async false
/-! The settings of a link, its frames sent, and what its lines do (R186, R188, R196 to R199). -/

namespace Sys2Proof.Machine

variable {s t : State} {l : LinkId} {tag : Nat} {c : Command} {k : Link} {f : Link → Link}

/-! ## One link changed -/

theorem modifyLink_of_self (h : f (s.links.get l) = s.links.get l) : modifyLink l f s = s := by
  rw [modifyLink, h, Table.set_get_self]

theorem modifyLink_of_eq (h : f (s.links.get l) = k) : modifyLink l f s = withLink l k s := by
  rw [modifyLink_eq_withLink, h]

theorem received_withLink : received l (withLink l k s) = withLink l k.receivedWhole s := by
  rw [received, withLink, modifyLink, Table.get_set_self, Table.set_set]
  rfl

theorem modifyLink_received : modifyLink l f (received l s) = withLink l (f (s.links.get l).receivedWhole) s := by
  rw [received, modifyLink_modifyLink]
  rfl

@[simp] theorem received_link : (received l s).links.get l = (s.links.get l).receivedWhole := modifyLink_get_self

/-- R192: a command that a READY link may run, well formed, is answered by its owner. -/
theorem takeCommand_ready {role form : Bool} {owner : State → Answer} (h : ReadyLink s l) (hr : role = true)
    (hf : form = true) (hl : c.isLong = true → (s.links.get l).long = none) :
    takeCommand l tag c role form owner s = (owner (received l s)).applied l tag c := by
  have hphase : (s.links.get l).receivedWhole.phase = .ready := h.2
  have hbusy : ¬ ((c.isLong && (s.links.get l).receivedWhole.long.isSome) = true) := by
    rw [Bool.and_eq_true]
    rintro ⟨hlong, hsome⟩
    rw [show (s.links.get l).receivedWhole.long = none from hl hlong] at hsome
    cases hsome
  rw [takeCommand, State.link, h.1.hears, if_pos rfl]
  change (match ((received l s).links.get l).phase with | .executing => _ | .result => _ | .ready => _) = _
  rw [received_link, hphase]
  change (if (!role) = true then _ else if (!form) = true then _
    else if (c.isLong && ((received l s).links.get l).long.isSome) = true then _ else _) = _
  rw [hr, hf, received_link]
  exact if_neg hbusy

/-- R193: a command ended without results on a READY link. -/
theorem completed_ready {code : CompletionCode} {fresh : Bool} (h : k.phase = .ready) :
    k.completed tag code [] fresh =
      { k with held := [], queue := k.queue ++ [.done tag code 0 fresh] } := by
  rw [Link.completed, h]
  rfl

/-! ## The settings -/

theorem takeClearLinkCounters (h : ReadyLink s l) :
    exec (.clearLinkCounters l tag) s =
      .next (withLink l
        { s.links.get l with
          receiver := .hunting
          counters := ⟨0, 0, 0, 0, 0, 0, 0⟩
          held := []
          queue := (s.links.get l).queue ++ [.done tag .ok 0 false] } s) := by
  refine congrArg _ ((takeCommand_ready h rfl rfl (fun hl => by cases hl)).trans ?_)
  rw [ownClearLinkCounters, received, modifyLink_modifyLink]
  exact modifyLink_modifyLink.trans (modifyLink_of_eq (completed_ready h.2))

theorem sourcesInRange_of_mem {sources : List Nat} (hnodup : sources.Nodup) (h : ∀ x ∈ sources, 1 ≤ x ∧ x ≤ 22) :
    sourcesInRange sources = true := by
  rw [sourcesInRange, Bool.and_eq_true, List.all_eq_true, decide_eq_true_iff]
  refine ⟨fun x hx => ?_, hnodup⟩
  rw [Bool.and_eq_true, decide_eq_true_iff, decide_eq_true_iff]
  exact h x hx

theorem takeReportProgram {mode n : Nat} {sources : List Nat} {d : Cadence} (h : ReadyLink s l)
    (hcadence : cadenceOf mode n = some d) (hone : 1 ≤ sources.length) (hmost : sources.length ≤ 12)
    (hsources : sourcesInRange sources = true) :
    exec (.reportProgram l tag mode n sources) s =
      .next (doneAt l tag .ok [] (withLink l { s.links.get l with program := some ⟨d, sources, 0⟩ } s)) := by
  have hform : (decide (1 ≤ sources.length) && decide (sources.length ≤ 12)) = true := by
    rw [Bool.and_eq_true, decide_eq_true_iff, decide_eq_true_iff]
    exact ⟨hone, hmost⟩
  refine congrArg _ (takeCommand_done h rfl hform (fun hl => by cases hl) Command.noConfusion ?_)
  rw [ownReportProgram, hcadence, received_withLink]
  dsimp only
  rw [hsources, modifyLink_received]
  rfl

theorem takeReportStop (h : ReadyLink s l) :
    exec (.reportStop l tag) s = .next (doneAt l tag .ok [] (withLink l { s.links.get l with program := none } s)) := by
  refine congrArg _ (takePlain_done h rfl (fun hl => by cases hl) Command.noConfusion ?_)
  rw [ownReportStop, modifyLink_received, received_withLink]
  rfl

theorem takeNoticeEnable {kinds : Nat} (h : ReadyLink s l) (hkinds : kinds < 2 ^ 20) :
    exec (.noticeEnable l tag kinds) s =
      .next (doneAt l tag .ok []
        (withLink l
          { s.links.get l with
            notices := .tabulate fun i => { (s.links.get l).notices.get i with enabled := kinds.testBit i.val } } s)) := by
  refine congrArg _ (takePlain_done h rfl (fun hl => by cases hl) Command.noConfusion ?_)
  rw [ownNoticeEnable, if_neg (Nat.not_le.mpr hkinds), modifyLink_received, received_withLink]
  rfl

/-! ## Frames sent -/

theorem takeSetForcedError {n : Nat} (h : ReadyLink s l) (hn : n ≤ 255) :
    exec (.setForcedError l tag n) s =
      .next (withLink l
        { s.links.get l with
          receiver := .hunting
          counters := (s.links.get l).counters.received
          held := []
          forced := n
          forcedCount := 0
          queue := (s.links.get l).queue ++ [.done tag .ok 0 true] } s) := by
  refine congrArg _ ((takeCommand_ready h rfl rfl (fun hl => by cases hl)).trans ?_)
  rw [ownSetForcedError, if_neg (Nat.not_lt.mpr hn), received, modifyLink_modifyLink]
  exact modifyLink_modifyLink.trans (modifyLink_of_eq (completed_ready h.2))

theorem exec_frameSent : exec (.frameSent l) s = .next (modifyLink l Link.sends s) := rfl

/-- R188: the frame sent, and whether its check is forced wrong. -/
theorem Link.sends_of_queue {frame : Frame} {rest : List Frame} (h : k.queue = frame :: rest) :
    k.sends =
      if frame.isFresh then
        { k with
          queue := rest, sending := frame.bytes false
          counters := { k.counters with framesSent := satInc 4294967295 k.counters.framesSent } }
      else
        { k with
          queue := rest
          counters := { k.counters with framesSent := satInc 4294967295 k.counters.framesSent }
          forcedCount := k.forcedCount + 1
          sending := frame.bytes (decide (1 ≤ k.forced ∧ k.forced ∣ k.forcedCount + 1)) } := by
  have hforced : ∀ n m : Nat, isForced n m = decide (1 ≤ n ∧ n ∣ m) := fun n m => by
    rw [isForced, Bool.eq_iff_iff, Bool.and_eq_true, beq_iff_eq, decide_eq_true_iff, decide_eq_true_iff,
      Nat.dvd_iff_mod_eq_zero]
  rw [← hforced, Link.sends, h]
  rfl

theorem Link.sends_of_nil (h : k.queue = []) : k.sends = k := by rw [Link.sends, h]

/-! ## The lines of a link -/

theorem exec_lineBreak : exec (.lineBreak l) s = .next (breakLine l s) := rfl

theorem dropWork_links : (dropWork l s).links = s.links.set l (s.links.get l).dropped := rfl

theorem dropWork_box {b : CompartmentId} :
    (dropWork l s).cabinet.compartments.get b =
      { s.cabinet.compartments.get b with door := (s.cabinet.compartments.get b).door.discarded l } :=
  Table.get_map ..

theorem breakLine_eq (h : TakesFrames s l) :
    breakLine l s = modifyLink l (fun k => { k with receiver := .lineLow }) (dropWork l s) := if_pos h.hears

theorem exec_receiveLineRise : exec (.receiveLineRise l) s = .next (modifyLink l Link.lineRisen s) := rfl

theorem exec_presentLineRise : exec (.presentLineRise l) s = .next (modifyLink l Link.risen s) := rfl

theorem exec_receivedCharacterFault {fault : CharFault} :
    exec (.receivedCharacterFault l fault) s = .next (modifyLink l (Link.faulted fault) s) := rfl

theorem Link.faulted_of_inFrame {fault : CharFault} {taken : List Byte} (hpresent : k.present = true)
    (h : k.receiver = .inFrame taken) :
    k.faulted fault = { k with receiver := .hunting, counters := k.counters.faulted fault } := by
  rw [Link.faulted, h, hpresent]
  rfl

theorem Link.faulted_of_hunting {fault : CharFault} (h : k.receiver = .hunting ∨ k.receiver = .lineLow) :
    k.faulted fault = k := by
  rcases h with h | h <;> rw [Link.faulted, h]

/-! ## Reports on a timer -/

theorem exec_reportTimerExpiry : exec (.reportTimerExpiry l) s = .next (expireReport l s) := rfl

section
variable {n ms produced : Nat} {sources : List Nat}

/-- R198: the program that a report's timer has set going again. -/
theorem setCadence_seconds (h : (s.links.get l).program = some ⟨.seconds n ms, sources, produced⟩) :
    setCadence l (.seconds n (n * 1000)) s =
      withLink l { s.links.get l with program := some ⟨.seconds n (n * 1000), sources, produced⟩ } s := by
  rw [setCadence, modifyLink_eq_withLink, h]
  rfl

theorem expireReport_of_seconds (h : (s.links.get l).program = some ⟨.seconds n ms, sources, produced⟩) :
    expireReport l s =
      reportDue l
        (withLink l { s.links.get l with program := some ⟨.seconds n (n * 1000), sources, produced⟩ } s) := by
  rw [expireReport, State.link, h, ← setCadence_seconds h]
  rfl

theorem reportDue_of_present {p : Program} (hprogram : (s.links.get l).program = some p)
    (h : (s.links.get l).present = true) :
    reportDue l s =
      withLink l
        { s.links.get l with
          program := some { p with produced := (p.produced + 1) % 65536 }
          queue := replaceOrAppend Frame.isReport
            (.report ((p.produced + 1) % 65536) (p.sources.map fun x => (x, sourceBytes s x))) (s.links.get l).queue }
        s := by
  rw [reportDue, State.link, hprogram]
  exact if_pos h

theorem reportDue_of_absent (h : (s.links.get l).present = false) : reportDue l s = s := by
  rw [reportDue, State.link]
  split
  · rfl
  · rw [h]
    rfl

theorem expireReport_of_other (h : ∀ n ms sources produced,
    (s.links.get l).program ≠ some ⟨.seconds n ms, sources, produced⟩) : expireReport l s = s := by
  rw [expireReport, State.link]
  split
  next n ms he =>
    obtain ⟨⟨d, sources, produced⟩, hprogram, hd⟩ := Option.map_eq_some_iff.mp he
    cases hd
    exact absurd hprogram (h n ms sources produced)
  · rfl

end

theorem withLink_withLink {k' : Link} : withLink l k' (withLink l k s) = withLink l k' s := by
  rw [withLink, withLink, Table.set_set]
  rfl

@[simp] theorem withLink_get_self : (withLink l k s).links.get l = k := Table.get_set_self ..

end Sys2Proof.Machine

open Sys2Proof Sys2Proof.Machine

/-- Settles O7: the owners change the link that took the frame, and no other part. -/
theorem linkSettingsAreWritten : Obligations.LinkSettingsAreWritten := by
  unfold Obligations.LinkSettingsAreWritten
  refine fun l tag s hl => ⟨takeClearLinkCounters hl, fun kinds => takeNoticeEnable hl,
    fun n sources hone hmost hnodup hsources => ?_, takeReportStop hl⟩
  have hrange := sourcesInRange_of_mem hnodup hsources
  refine ⟨fun hn hn' => takeReportProgram hl ?_ hone hmost hrange,
    fun hn hn' => takeReportProgram hl ?_ hone hmost hrange⟩
  · exact if_pos ⟨rfl, hn, hn'⟩
  · exact (if_neg fun h => by cases h.1).trans (if_pos ⟨rfl, hn, hn'⟩)

/-- Settles O8: the frames sent are counted from SET FORCED ERROR on, its own DONE frame left out. -/
theorem forcedErrorsFollowTheCount : Obligations.ForcedErrorsFollowTheCount := by
  unfold Obligations.ForcedErrorsFollowTheCount
  refine fun l s => ⟨fun tag n hn hl => takeSetForcedError hl hn, fun f rest hqueue => ?_, fun hqueue => ?_⟩
  · rw [exec_frameSent, modifyLink_of_eq (Link.sends_of_queue hqueue)]
  · rw [exec_frameSent, modifyLink_of_self (Link.sends_of_nil hqueue)]

/-- Settles O9: the break drops the link's own work, and marks its doors' commands for discard. -/
theorem breakDropsTheLinksWork : Obligations.BreakDropsTheLinksWork := by
  unfold Obligations.BreakDropsTheLinksWork
  refine fun l s hl => ⟨_, exec_lineBreak, ?_, ?_, fun c => ?_⟩
  · rw [breakLine_eq hl]
    rfl
  · rw [breakLine_eq hl, modifyLink, dropWork_links, Table.get_set_self, Table.set_set]
    rfl
  · rw [breakLine_eq hl, modifyLink_cabinet, dropWork_box]
    exact ⟨rfl, rfl⟩

/-- Settles O11: each line event by the state of the link it finds. -/
theorem linkEventsMoveTheLink : Obligations.LinkEventsMoveTheLink := by
  unfold Obligations.LinkEventsMoveTheLink
  refine ⟨fun l s => ⟨fun hlow => ?_, fun hhigh => ?_, fun habsent => ?_, fun hpresent => ?_,
    fun taken hpresent hframe => ?_, fun f hout => ?_⟩,
    fun l s => ⟨fun n ms sources produced hprogram => ⟨fun hpresent => ?_, fun habsent => ?_⟩, fun hother => ?_⟩⟩
  · exact exec_receiveLineRise.trans (congrArg _ (modifyLink_of_eq (if_pos hlow)))
  · exact exec_receiveLineRise.trans (congrArg _ (modifyLink_of_self (if_neg hhigh)))
  · exact exec_presentLineRise.trans
      (congrArg _ (modifyLink_of_eq (if_neg (by rw [habsent]; exact Bool.false_ne_true))))
  · exact exec_presentLineRise.trans (congrArg _ (modifyLink_of_self (if_pos hpresent)))
  · simp only [exec_receivedCharacterFault, modifyLink_of_eq (Link.faulted_of_inFrame hpresent hframe)]
    exact ⟨rfl, rfl, rfl⟩
  · rw [exec_receivedCharacterFault, modifyLink_of_self (Link.faulted_of_hunting hout)]
  · rw [exec_reportTimerExpiry, expireReport_of_seconds hprogram,
      reportDue_of_present (p := ⟨.seconds n (n * 1000), sources, produced⟩) (by rw [withLink_get_self])
        (by rw [withLink_get_self]; exact hpresent), withLink_withLink, withLink_get_self]
    rfl
  · rw [exec_reportTimerExpiry, expireReport_of_seconds hprogram,
      reportDue_of_absent (by rw [withLink_get_self]; exact habsent)]
  · rw [exec_reportTimerExpiry, expireReport_of_other hother]

end

section
-- One theorem after another: elaborated side by side, the whole text asks for more threads than the check has memory for.
set_option Elab.async false
/-! The claims and the safe: what a holder's loss relocks (R116 to R124, R131, R144, R199). -/

namespace Sys2Proof.Machine

variable {s t : State} {l : LinkId} {tag : Nat} {c : Command} {r : Fin 9} {b : Fin 4} {code : CompletionCode}
  {lost : CompartmentId → LinkId → Bool} {owner : State → Answer}

/-! ## Doors relocked at once -/

theorem relockedOnce_of_none (h : ∀ c, abandonedAt lost s c = none) : relockedOnce lost s = s :=
  if_neg fun ⟨c, hc⟩ => hc (h c)

theorem relockedOnce_of_false (h : ∀ c l, lost c l = false) : relockedOnce lost s = s := by
  refine relockedOnce_of_none fun c => Option.eq_none_iff_forall_ne_some.mpr fun l hl => ?_
  obtain ⟨_, hlost⟩ := abandonedAt_eq_some.mp hl
  rw [h] at hlost
  cases hlost

/-- Doors relocked move the cabinet, the links and what a place freed lets a blocked station do. -/
theorem relockedOnce_eq :
    relockedOnce lost s =
      { s with
        register := (relockedOnce lost s).register
        station := (relockedOnce lost s).station
        cabinet := (relockedOnce lost s).cabinet
        links := (relockedOnce lost s).links } := by
  unfold relockedOnce
  split
  · rw [testLowMarks_eq, retry_eq]
    rfl
  · rfl

theorem relockedOnce_of_not_blocked (h : ∀ n src, s.station.state ≠ .blocked n src) :
    (relockedOnce lost s).register = s.register ∧ (relockedOnce lost s).station = s.station := by
  unfold relockedOnce
  split
  · rw [retry_of_not_blocked (by exact h), testLowMarks_register, testLowMarks_station]
    exact ⟨rfl, rfl⟩
  · exact ⟨rfl, rfl⟩

theorem relockedOnce_box {c : CompartmentId} :
    (relockedOnce lost s).cabinet.compartments.get c =
      if abandonedAt lost s c = none then s.cabinet.compartments.get c
      else { s.cabinet.compartments.get c with door := .locked } := by
  unfold relockedOnce
  split
  · rw [testLowMarks_compartments, retry_cabinet, relocked_box]
  next hnone =>
    rw [if_pos]
    by_contra hc
    exact hnone ⟨c, hc⟩

theorem relockedOnce_occupants {c : CompartmentId} :
    ((relockedOnce lost s).cabinet.compartments.get c).occupants = (s.cabinet.compartments.get c).occupants := by
  rw [relockedOnce_box]
  split <;> rfl

theorem relockedOnce_link :
    (relockedOnce lost s).links.get l =
      { (if ∃ c, abandonedAt lost s c = some l then (s.links.get l).abandoned else s.links.get l) with
        notices := ((relockedOnce lost s).links.get l).notices } := by
  unfold relockedOnce
  split
  · rw [testLowMarks_get, retry_links, relocked_link]
  next hnone =>
    rw [if_neg fun ⟨c, hc⟩ => hnone ⟨c, by rw [hc]; exact Option.some_ne_none l⟩]

theorem relockedOnce_claims : (relockedOnce lost s).claims = s.claims := by rw [relockedOnce_eq]

theorem relockedOnce_store : (relockedOnce lost s).store = s.store := by rw [relockedOnce_eq]

/-- A link whose command is told to be discarded loses that command alone. -/
theorem Link.abandoned_of_discard {k : Link} (h : ∀ c, k.long = some c → c.delivery = .discard) :
    k.abandoned = { k with long := none } := by
  obtain ⟨_, _, _, _, long, _, _, _, _, _, _, _⟩ := k
  cases long with
  | none => rfl
  | some c =>
    obtain ⟨_, _, delivery⟩ := c
    cases h _ rfl
    rfl

/-- A link whose command is told to be discarded keeps all but that command when doors are relocked. -/
theorem relockedOnce_link_of_discard (h : ∀ c, (s.links.get l).long = some c → c.delivery = .discard) :
    (relockedOnce lost s).links.get l =
      { s.links.get l with
        long := ((relockedOnce lost s).links.get l).long
        notices := ((relockedOnce lost s).links.get l).notices } := by
  rw [relockedOnce_link, Link.abandoned_of_discard h]
  split <;> rfl

theorem relockedOnce_link_of_not_lost (h : ∀ c, lost c l = false) :
    (relockedOnce lost s).links.get l =
      { s.links.get l with notices := ((relockedOnce lost s).links.get l).notices } := by
  rw [relockedOnce_link, if_neg]
  rintro ⟨c, hc⟩
  obtain ⟨_, hlost⟩ := abandonedAt_eq_some.mp hc
  rw [h] at hlost
  cases hlost

/-! ## The claim summary -/

/-- R124: a command of the claims ends with the claims as they stand. -/
theorem takeSummary (h : ReadyLink s l) (hr : c.allowed l = true) (hlong : c.isLong = false)
    (hc : c ≠ .setForcedError) (ho : owner (received l s) = withSummary code (received l t)) (ht : t.store = s.store) :
    takePlain l tag c owner s = doneAt l tag code [.claims t.claims s.store.params.cosignWindow] t := by
  refine takePlain_done h hr (fun hl => by rw [hlong] at hl; cases hl) hc (ho.trans ?_)
  rw [← ht]
  rfl

theorem resourceOf_succ : resourceOf (r.val + 1) = some r := by
  revert r
  decide

theorem bankResource_lt : (bankResource b).val < 4 := b.isLt

theorem bankResource_inj {a : Fin 4} : bankResource a = bankResource b ↔ a = b := by
  rw [bankResource, bankResource, Fin.ext_iff, Fin.ext_iff]

theorem mem_banks : r ∈ banks ↔ r.val < 4 := by
  revert r
  decide

theorem mem_allResources : r ∈ allResources := List.mem_finRange r

/-! ## Resources retained -/

theorem retainAll_received {rs : List (Fin 9)} : retainAll rs (received l s) = received l (retainAll rs s) := by
  rw [retainAll_eq, retainAll_eq, ← relockedOnce_received]
  rfl

/-- R119: one resource retained; its doors relocked where it is a bank. -/
theorem retainAll_singleton :
    retainAll [r] s =
      relockedOnce (fun c l => decide (bankResource (bankOf c) = r) && holds s l (bankResource (bankOf c)))
        { s with claims := { s.claims with resources := s.claims.resources.set r .retained } } := by
  have htable : (Table.tabulate fun x => if x ∈ [r] then Holder.retained else s.claims.resources.get x) =
      s.claims.resources.set r .retained :=
    Table.ext_get fun x => by
      rw [Table.get_tabulate, Table.get_set]
      exact if_congr List.mem_singleton rfl rfl
  have hlost : (fun c l => [r].contains (bankResource (bankOf c)) && holds s l (bankResource (bankOf c))) =
      fun c l => decide (bankResource (bankOf c) = r) && holds s l (bankResource (bankOf c)) := by
    simp only [List.contains_eq_mem, List.mem_singleton]
  rw [retainAll_eq, htable, hlost]

theorem retainAll_of_mem_banks {rs : List (Fin 9)} (h : ∀ b, bankResource b ∈ rs) :
    retainAll rs s =
      relockedOnce (fun c l => holds s l (bankResource (bankOf c)))
        { s with
          claims :=
            { s.claims with
              resources := .tabulate fun r => if r ∈ rs then .retained else s.claims.resources.get r } } := by
  rw [retainAll_eq]
  simp only [List.contains_eq_mem, h, decide_true, Bool.true_and]

/-- R119: every resource retained. -/
theorem retainAll_all :
    retainAll allResources s =
      relockedOnce (fun c l => holds s l (bankResource (bankOf c)))
        { s with claims := { s.claims with resources := .fill .retained } } := by
  have htable : (Table.tabulate fun x => if x ∈ allResources then Holder.retained else s.claims.resources.get x) =
      .fill .retained :=
    Table.ext_get fun x => by rw [Table.get_tabulate, Table.get_fill, if_pos mem_allResources]
  rw [retainAll_of_mem_banks fun _ => mem_allResources, htable]

/-- R117, R119: the safe LOCKED, every bank retained with it. -/
theorem lockSafe_eq :
    lockSafe s =
      raiseTimes .openAtLock (s.cabinet.compartments.cells.countP fun b => b.door.isOpen)
        (relockedOnce (fun c l => holds s l (bankResource (bankOf c)))
          { s with
            claims :=
              { safe := .locked
                resources := .tabulate fun r =>
                  if r.val < 4 then .retained else s.claims.resources.get r } }) := by
  rw [lockSafe, retainAll_of_mem_banks bankResource_mem_banks]
  simp only [mem_banks]
  rfl

/-- R117: a safe that is LOCKED is left as it is. -/
theorem ownSafeState_of_locked (h : s.claims.safe = .locked) : ownSafeState 1 s = withSummary .ok s :=
  congrArg (withSummary .ok) (if_pos h)

theorem lockSafe_received : lockSafe (received l s) = received l (lockSafe s) := by
  rw [lockSafe, lockSafe, ← raiseTimes_received, ← retainAll_received]
  rfl

/-! ## The rows of the claims -/

theorem ownRetain_some : ownRetain (some (r.val + 1)) s = withSummary .ok (retainAll [r] s) := by
  simp only [ownRetain, resourceOf_succ]

theorem takeRetain_none (h : ReadyLink s 0) :
    exec (.retain 0 tag none) s =
      .next (doneAt 0 tag .ok [.claims (retainAll allResources s).claims s.store.params.cosignWindow]
        (retainAll allResources s)) := by
  refine congrArg _ (takeSummary h rfl rfl Command.noConfusion ?_ ?_)
  · rw [← retainAll_received]
    rfl
  · rw [retainAll_eq, relockedOnce_store]

theorem takeRetain_some (h : ReadyLink s 0) :
    exec (.retain 0 tag (some (r.val + 1))) s =
      .next (doneAt 0 tag .ok [.claims (retainAll [r] s).claims s.store.params.cosignWindow] (retainAll [r] s)) := by
  refine congrArg _ (takeSummary h rfl rfl Command.noConfusion ?_ ?_)
  · rw [ownRetain_some, retainAll_received]
  · rw [retainAll_eq, relockedOnce_store]

theorem takeSafeLocked (h : ReadyLink s 0) (hsafe : s.claims.safe = .opened) :
    exec (.safeState 0 tag 1) s =
      .next (doneAt 0 tag .ok [.claims (lockSafe s).claims s.store.params.cosignWindow] (lockSafe s)) := by
  refine congrArg _ (takeSummary h rfl rfl Command.noConfusion ?_ ?_)
  · rw [← lockSafe_received]
    refine congrArg (withSummary .ok) (if_neg ?_)
    rw [received, modifyLink_claims, hsafe]
    exact SafeState.noConfusion
  · rw [lockSafe_eq, raiseTimes_store, relockedOnce_store]

/-- A command of the claims that moves one holder and nothing else. -/
theorem takeSetHolder {h : Holder} (hl : ReadyLink s l) (hr : c.allowed l = true) (hlong : c.isLong = false)
    (hc : c ≠ .setForcedError) (ho : owner (received l s) = withSummary .ok (setHolder r h (received l s))) :
    takePlain l tag c owner s =
      doneAt l tag .ok
        [.claims { s.claims with resources := s.claims.resources.set r h } s.store.params.cosignWindow]
        { s with claims := { s.claims with resources := s.claims.resources.set r h } } :=
  takeSummary (t := setHolder r h s) hl hr hlong hc ho rfl

/-- R120: a bank is relinquished with the safe OPEN alone. -/
theorem ownRelinquish_of_retained (h : s.claims.resources.get r = .retained)
    (hsafe : 4 ≤ r.val ∨ s.claims.safe = .opened) :
    ownRelinquish (r.val + 1) s = withSummary .ok (setHolder r .free s) := by
  have hopen : ¬ ((asBank r).isSome = true ∧ s.claims.safe = .locked) := by
    rw [asBank_isSome]
    rintro ⟨hr, hlocked⟩
    rcases hsafe with hr' | hopened
    · omega
    · rw [hlocked] at hopened
      cases hopened
  simp only [ownRelinquish, resourceOf_succ, State.holder, h, ne_eq, not_true_eq_false, if_false, if_neg hopen]

/-- R121: a bank claimed waits for its cosign, any other resource is held at once. -/
theorem ownClaim_of_free (h : s.claims.resources.get r = .free) :
    ownClaim l (r.val + 1) s =
      withSummary .ok
        (setHolder r (if r.val < 4 then .cosignWait l (s.store.params.cosignWindow * 1000) else .held l none) s) := by
  simp only [ownClaim, resourceOf_succ, State.holder, h, claimed, asBank_isSome]

/-- R122: the claimant does not cosign its own claim. -/
theorem ownCosign_of_wait {x : LinkId} {ms : Nat} (h : s.claims.resources.get r = .cosignWait x ms) :
    ownCosign l (r.val + 1) s =
      if x = l then withSummary .wrongState s else withSummary .ok (setHolder r (.held x (some l)) s) := by
  simp only [ownCosign, resourceOf_succ, State.holder, h]

theorem ownYield_of_wait {ms : Nat} (h : s.claims.resources.get r = .cosignWait l ms) :
    ownYield l (r.val + 1) s = withSummary .ok (setHolder r .free s) := by
  simp only [ownYield, resourceOf_succ, State.holder, h, if_true]

theorem exec_cosignWindowExpiry : exec (.cosignWindowExpiry b) s = .next (lapse b s) := rfl

theorem lapse_of_wait {x : LinkId} {ms : Nat} (h : s.claims.resources.get (bankResource b) = .cosignWait x ms) :
    lapse b s = raise .cosignLapsed (setHolder (bankResource b) .free s) := by
  simp only [lapse, State.holder, h]

theorem lapse_of_not_wait (h : ∀ x ms, s.claims.resources.get (bankResource b) ≠ .cosignWait x ms) :
    lapse b s = s := by
  unfold lapse
  split
  next he => exact absurd he (h _ _)
  · rfl

/-! ## A resource yielded -/

theorem yieldHeld_received {k : LinkId} : yieldHeld l r (received k s) = received k (yieldHeld l r s) := by
  rw [yieldHeld_eq, yieldHeld_eq, ← relockedOnce_received]
  rfl

theorem ownYield_of_held {k : Option LinkId} (h : s.claims.resources.get r = .held l k) :
    ownYield l (r.val + 1) s = withSummary .ok (yieldHeld l r s) := by
  simp only [ownYield, resourceOf_succ, State.holder, h, if_true]

theorem takeYield_held {k : Option LinkId} (hl : ReadyLink s l) (hne : l ≠ 0)
    (h : s.claims.resources.get r = .held l k) :
    exec (.yieldResource l tag (r.val + 1)) s =
      .next (doneAt l tag .ok [.claims (yieldHeld l r s).claims s.store.params.cosignWindow] (yieldHeld l r s)) := by
  refine congrArg _ (takeSummary (c := .yieldResource) hl (bne_iff_ne.mpr hne) rfl Command.noConfusion ?_ ?_)
  · rw [ownYield_of_held (s := received l s) h, yieldHeld_received]
  · rw [yieldHeld_eq, relockedOnce_store]

/-- R116: no resource but the banks has doors. -/
theorem bankResource_ne (h : 4 ≤ r.val) : bankResource b ≠ r := fun he =>
  absurd (he ▸ bankResource_lt : r.val < 4) (Nat.not_lt.mpr h)

theorem yieldHeld_of_not_bank (h : 4 ≤ r.val) : yieldHeld l r s = setHolder r .free s := by
  rw [yieldHeld_eq]
  exact relockedOnce_of_false fun c _ => by rw [decide_eq_false (bankResource_ne h), Bool.false_and]

theorem retainAll_of_not_lost (h : (∀ l k, s.claims.resources.get r ≠ .held l k) ∨ 4 ≤ r.val) :
    retainAll [r] s = setHolder r .retained s := by
  rw [retainAll_singleton]
  refine relockedOnce_of_false fun c l => ?_
  rw [Bool.and_eq_false_iff, decide_eq_false_iff_not]
  by_cases hbank : bankResource (bankOf c) = r
  · refine .inr ?_
    rw [hbank]
    rcases h with hheld | hr
    · unfold holds State.holder
      split
      next l' k he => exact absurd he (hheld l' k)
      · rfl
    · exact absurd hbank (bankResource_ne hr)
  · exact .inl hbank

/-! ## The present line -/

theorem exec_presentLineFall : exec (.presentLineFall l) s = .next (fallLine l s) := rfl

/-- R199: the link gone, its doors' commands marked for discard. -/
def lineFallen (l : LinkId) (s : State) : State := modifyLink l Link.absent (dropWork l s)

theorem fallLine_eq : fallLine l s = retainAll (lostWith l (lineFallen l s)) (lineFallen l s) := rfl

theorem mem_lostWith : r ∈ lostWith l s ↔ l ≠ 0 ∧ isOf l (s.holder r) = true := by
  unfold lostWith
  split
  next hl => exact iff_of_false List.not_mem_nil fun h => h.1 hl
  next hl =>
    rw [List.mem_filter]
    exact ⟨fun h => ⟨hl, h.2⟩, fun h => ⟨List.mem_finRange r, h.2⟩⟩

theorem holds_eq_true : holds s l r = true ↔ ∃ k, s.claims.resources.get r = .held l k := by
  unfold holds State.holder
  split
  next h k he =>
    rw [he]
    constructor
    · exact fun hl => ⟨k, by rw [eq_of_beq hl]⟩
    · rintro ⟨k', hk⟩
      cases hk
      exact beq_self_eq_true l
  next hne => exact iff_of_false Bool.false_ne_true fun ⟨k, hk⟩ => hne l k hk

theorem isOf_iff {h : Holder} : isOf l h = true ↔ (∃ k, h = .held l k) ∨ ∃ ms, h = .cosignWait l ms := by
  cases h with
  | held x k =>
    rw [isOf, beq_iff_eq]
    constructor
    · rintro rfl
      exact .inl ⟨k, rfl⟩
    · rintro (⟨_, h⟩ | ⟨_, h⟩)
      · cases h; rfl
      · cases h
  | cosignWait x ms =>
    rw [isOf, beq_iff_eq]
    constructor
    · rintro rfl
      exact .inr ⟨ms, rfl⟩
    · rintro (⟨_, h⟩ | ⟨_, h⟩)
      · cases h
      · cases h; rfl
  | retained => exact iff_of_false Bool.false_ne_true (by rintro (⟨_, h⟩ | ⟨_, h⟩) <;> cases h)
  | free => exact iff_of_false Bool.false_ne_true (by rintro (⟨_, h⟩ | ⟨_, h⟩) <;> cases h)

/-- R199: a link that is gone loses what it held or waited for. -/
theorem lostTo_eq {h : Holder} :
    (if l ≠ 0 ∧ isOf l h = true then Holder.retained else h) =
      match h with
      | .held x k => if x = l ∧ l ≠ 0 then .retained else .held x k
      | .cosignWait x ms => if x = l ∧ l ≠ 0 then .retained else .cosignWait x ms
      | x => x := by
  cases h with
  | held x k => exact if_congr (by rw [isOf, beq_iff_eq, and_comm]) rfl rfl
  | cosignWait x ms => exact if_congr (by rw [isOf, beq_iff_eq, and_comm]) rfl rfl
  | retained => exact if_neg (by rintro ⟨_, h⟩; cases h)
  | free => exact if_neg (by rintro ⟨_, h⟩; cases h)

/-- R199: the doors of a link that is gone lose it alone. -/
theorem lostWith_and_holds {x : LinkId} :
    ((lostWith l s).contains r && holds s x r) = (decide (l ≠ 0) && (x == l && holds s x r)) := by
  rw [Bool.eq_iff_iff]
  simp only [Bool.and_eq_true, List.contains_eq_mem, decide_eq_true_eq, beq_iff_eq, mem_lostWith, isOf_iff,
    holds_eq_true, State.holder]
  constructor
  · rintro ⟨⟨hl, ⟨k, hk⟩ | ⟨ms, hk⟩⟩, k', hk'⟩
    · rw [hk] at hk'
      cases hk'
      exact ⟨hl, rfl, k, hk⟩
    · rw [hk] at hk'
      cases hk'
  · rintro ⟨hl, rfl, k, hk⟩
    exact ⟨⟨hl, .inl ⟨k, hk⟩⟩, k, hk⟩

/-- R199: what the fall of a link's line leaves. -/
theorem fallLine_relocked :
    fallLine l s =
      relockedOnce (fun c x => decide (l ≠ 0) && (x == l && holds s x (bankResource (bankOf c))))
        { lineFallen l s with
          claims :=
            { s.claims with
              resources := s.claims.resources.map fun h => if l ≠ 0 ∧ isOf l h = true then .retained else h } } := by
  have htable : (Table.tabulate fun r => if r ∈ lostWith l (lineFallen l s) then Holder.retained
      else (lineFallen l s).claims.resources.get r) =
      s.claims.resources.map fun h => if l ≠ 0 ∧ isOf l h = true then .retained else h :=
    Table.ext_get fun r => by
      rw [Table.get_tabulate, Table.get_map]
      exact if_congr mem_lostWith rfl rfl
  rw [fallLine_eq, retainAll_eq, htable]
  simp only [lostWith_and_holds]
  rfl

theorem lineFallen_eq :
    lineFallen l s =
      { s with
        cabinet :=
          { s.cabinet with
            compartments := s.cabinet.compartments.map fun b => { b with door := b.door.discarded l } }
        links := s.links.set l
          { s.links.get l with
            present := false
            phase := .ready
            receiver := .hunting
            held := []
            queue := []
            long := (s.links.get l).long.map LongCommand.discarded } } := by
  rw [lineFallen, modifyLink, dropWork_links, Table.get_set_self, Table.set_set]
  rfl

theorem lineFallen_link :
    (lineFallen l s).links.get l =
      { s.links.get l with
        present := false
        phase := .ready
        receiver := .hunting
        held := []
        queue := []
        long := (s.links.get l).long.map LongCommand.discarded } := by
  rw [lineFallen_eq, Table.get_set_self]

theorem lineFallen_link_ne {i : LinkId} (h : i ≠ l) : (lineFallen l s).links.get i = s.links.get i := by
  rw [lineFallen_eq, Table.get_set_ne _ _ h]

end Sys2Proof.Machine

open Sys2Proof Sys2Proof.Machine

/-- Settles O45: every loss of a bank is one relocking of the doors that its holder's commands unlocked. -/
theorem lostBankRelocksItsDoors : Obligations.LostBankRelocksItsDoors := by
  unfold Obligations.LostBankRelocksItsDoors
  refine fun tag s => ⟨fun b hl => ?_, fun b h k hne hl hheld => ?_, fun hl => ?_, fun hl hsafe => ?_, fun l hne => ?_⟩
  · refine (takeRetain_some (r := bankResource b) hl).trans ?_
    rw [retainAll_singleton, relockedOnce_claims]
    simp only [bankResource_inj]
    rfl
  · refine (takeYield_held hl hne hheld).trans ?_
    rw [yieldHeld_eq, relockedOnce_claims]
    simp only [bankResource_inj]
    rfl
  · refine (takeRetain_none hl).trans ?_
    rw [retainAll_all, relockedOnce_claims]
  · refine (takeSafeLocked hl hsafe).trans ?_
    rw [lockSafe_eq, raiseTimes_claims, relockedOnce_claims]
  · rw [exec_presentLineFall, fallLine_relocked, lineFallen_eq]
    simp only [lostTo_eq]
    simp only [hne, ne_eq, not_false_eq_true, and_true, decide_true, Bool.true_and]
    rfl

/-- Settles O10: the doors relocked are doors of the link that is gone, and that link has nothing to be told. -/
theorem presentLineFallRetainsHolds : Obligations.PresentLineFallRetainsHolds := by
  unfold Obligations.PresentLineFallRetainsHolds
  refine fun l s => ⟨_, exec_presentLineFall, ?_, fun i hi => ?_, ?_, fun r => ?_, fun c => ?_, fun hblocked => ?_, ?_⟩
  · rw [fallLine_relocked]
    refine (relockedOnce_link_of_discard fun c hc => ?_).trans ?_
    · obtain ⟨c', _, rfl⟩ := Option.map_eq_some_iff.mp ((congrArg Link.long lineFallen_link.symm).trans hc)
      rfl
    · rw [lineFallen_link]
  · rw [fallLine_relocked]
    refine (relockedOnce_link_of_not_lost fun c => ?_).trans ?_
    · rw [beq_eq_false_iff_ne.mpr hi, Bool.false_and, Bool.and_false]
    · rw [lineFallen_link_ne hi]
  · rw [fallLine_relocked, relockedOnce_claims]
  · rw [fallLine_relocked, relockedOnce_claims]
    exact (Table.get_map ..).trans lostTo_eq
  · rw [fallLine_relocked, relockedOnce_occupants, lineFallen_eq, Table.get_map]
  · rw [fallLine_relocked]
    exact relockedOnce_of_not_blocked hblocked
  · rw [fallLine_relocked, relockedOnce_eq, lineFallen_eq]

/-- Settles O43: opening moves the safe alone; locking and retaining are one relocking of the doors lost. -/
theorem safeStateLocksTheBanks : Obligations.SafeStateLocksTheBanks := by
  unfold Obligations.SafeStateLocksTheBanks
  refine fun tag s hl => ⟨?_, fun hsafe => ?_, fun hsafe => ⟨lockSafe s, takeSafeLocked hl hsafe, ?_⟩,
    retainAll allResources s, takeRetain_none hl, ?_⟩
  · exact congrArg _ (takeSummary (t := setSafe .opened s) hl rfl rfl Command.noConfusion rfl rfl)
  · refine congrArg _ (takeSummary (t := s) hl rfl rfl Command.noConfusion ?_ rfl)
    exact ownSafeState_of_locked (s := received 0 s) hsafe
  · rw [lockSafe_eq]
    refine ⟨?_, fun r hr => ?_, fun r hr => ?_, fun c => ?_, fun hblocked => ?_, ?_⟩
    · rw [raiseTimes_claims, relockedOnce_claims]
    · rw [raiseTimes_claims, relockedOnce_claims, Table.get_tabulate, if_pos hr]
    · rw [raiseTimes_claims, relockedOnce_claims, Table.get_tabulate, if_neg (Nat.not_lt.mpr hr)]
    · rw [raiseTimes_cabinet, relockedOnce_occupants]
    · rw [raiseTimes_register, raiseTimes_station]
      exact relockedOnce_of_not_blocked hblocked
    · rw [raiseTimes_eq, relockedOnce_eq]
  · rw [retainAll_all]
    refine ⟨?_, fun r => ?_, fun c => ?_, fun hblocked => ?_, ?_⟩
    · rw [relockedOnce_claims]
    · rw [relockedOnce_claims, Table.get_fill]
    · rw [relockedOnce_occupants]
    · exact relockedOnce_of_not_blocked hblocked
    · rw [relockedOnce_eq]

/-- Settles O44: each row of the claims moves the one holder it names. -/
theorem claimsMoveTheHolder : Obligations.ClaimsMoveTheHolder := by
  unfold Obligations.ClaimsMoveTheHolder
  refine ⟨fun l tag r s hl => ⟨?_, fun hne hfree => ?_, fun h ms hother hwait => ?_, fun ms hwait => ?_,
    fun ms hne hwait => ?_, fun k hne hr hheld => ?_, ?_⟩, fun b s => ⟨fun l ms hwait => ?_, fun hother => ?_⟩⟩
  · rintro rfl hretained hsafe
    refine congrArg _ (takeSetHolder hl rfl rfl Command.noConfusion ?_)
    exact ownRelinquish_of_retained hretained hsafe
  · refine congrArg _ (takeSetHolder (c := .claim) hl (bne_iff_ne.mpr hne) rfl Command.noConfusion ?_)
    rw [ownClaim_of_free (s := received l s) hfree]
    rfl
  · refine congrArg _ (takeSetHolder hl rfl rfl Command.noConfusion ?_)
    exact (ownCosign_of_wait (s := received l s) hwait).trans (if_neg hother)
  · refine congrArg _ (takeSummary (t := s) hl rfl rfl Command.noConfusion ?_ rfl)
    exact (ownCosign_of_wait (s := received l s) hwait).trans (if_pos rfl)
  · refine congrArg _ (takeSetHolder (c := .yieldResource) hl (bne_iff_ne.mpr hne) rfl Command.noConfusion ?_)
    exact ownYield_of_wait (s := received l s) hwait
  · refine (takeYield_held hl hne hheld).trans ?_
    rw [yieldHeld_of_not_bank hr]
    rfl
  · rintro rfl hkept
    refine (takeRetain_some hl).trans ?_
    rw [retainAll_of_not_lost hkept]
    rfl
  · rw [exec_cosignWindowExpiry, lapse_of_wait hwait]
    rfl
  · rw [exec_cosignWindowExpiry, lapse_of_not_wait hother]

end

section
-- One theorem after another: elaborated side by side, the whole text asks for more threads than the check has memory for.
set_option Elab.async false
/-! The commands that read tables: copies of what stands there (R148, R150, R203, Table 35). -/

namespace Sys2Proof.Machine

variable {s t : State} {l : LinkId} {tag n : Nat} {c : Command} {r : Record} {code : CompletionCode}
  {results : List ResultRecord} {owner : State → Answer}

/-- R193: a command that reads alone. -/
theorem takeRead (h : ReadyLink s l) (hr : c.allowed l = true) (hlong : c.isLong = false) (hc : c ≠ .setForcedError)
    (ho : owner (received l s) = .done code results (received l s)) :
    takePlain l tag c owner s = doneAt l tag code results s :=
  takePlain_done h hr (fun hl => by rw [hlong] at hl; cases hl) hc ho

theorem not_valid (h : s.store.valid = true) : ¬ ((!s.store.valid) = true) := by
  rw [h]
  exact Bool.false_ne_true

theorem index_of_lt {m v : Nat} (h : v < m) : index m v = some ⟨v, h⟩ := dif_pos h

theorem index_val {m : Nat} {i : Fin m} : index m i.val = some i := index_of_lt i.isLt

/-! ## READ RECORD and LIST RECORDS -/

theorem find_eq_none (h : ∀ r ∈ s.register.records, r.number ≠ n) : s.find n = none :=
  List.find?_eq_none.mpr fun r hr => by
    rw [beq_iff_eq]
    exact h r hr

section
variable (hvalid : s.store.valid = true)
include hvalid

theorem ownReadRecord_of_record (hn : n ≠ 0) (h : s.find n = some r) :
    ownReadRecord n s = .done .ok [.custody r] s := by
  rw [ownReadRecord, if_neg hn, if_neg (not_valid hvalid), h]

theorem ownReadRecord_of_none (hn : n ≠ 0) (h : s.find n = none) : ownReadRecord n s = declined .notFound s := by
  rw [ownReadRecord, if_neg hn, if_neg (not_valid hvalid), h]

theorem ownListRecords_of_range {f : RecordFilter} (hrange : filterInRange f = true) :
    ownListRecords f s = .done .ok ((s.register.records.filter (meetsFilter f)).map .custody) s := by
  rw [ownListRecords, hrange, if_neg (by decide), if_neg (not_valid hvalid)]

end

theorem forall_mem_some {α : Type} {a : α} {p : α → Prop} : (∀ x ∈ some a, p x) ↔ p a := by
  simp only [Option.mem_some_iff, forall_eq']

theorem atPlace_recordStates {st : RecordState} : atPlace recordStates (st.code + 1) = some st := by
  cases st <;> rfl

/-- The criteria of LIST RECORDS as its frame carries them. -/
def criteria (st : Option RecordState) (c : Option CompartmentId) (d : Option DepositorId) (date : Option Nat) :
    RecordFilter :=
  ⟨st.map fun x => x.code + 1, c.map Fin.val, d.map Fin.val, date⟩

section
variable {st : Option RecordState} {box : Option CompartmentId} {d : Option DepositorId} {date : Option Nat}

theorem criteria_inRange (hdate : ∀ x ∈ date, x ≤ 65535) : filterInRange (criteria st box d date) = true := by
  have hstate : ((st.map fun x => x.code + 1).all fun k => (atPlace recordStates k).isSome) = true := by
    cases st with
    | none => rfl
    | some x => rw [Option.map_some, Option.all_some, atPlace_recordStates]; rfl
  have hbox : ((box.map Fin.val).all (· < 48)) = true := by
    cases box with
    | none => rfl
    | some x => exact decide_eq_true x.isLt
  have hdepositor : ((d.map Fin.val).all (· < 128)) = true := by
    cases d with
    | none => rfl
    | some x => exact decide_eq_true x.isLt
  have hdate' : date.all (· ≤ Config.lastDate) = true := by
    cases date with
    | none => rfl
    | some x => exact decide_eq_true (hdate x rfl)
  rw [filterInRange, criteria, hstate, hbox, hdepositor, hdate']
  rfl

theorem meets_criteria :
    meetsFilter (criteria st box d date) r =
      decide ((∀ x ∈ st, r.state = x) ∧ (∀ x ∈ box, r.compartment = some x) ∧ (∀ x ∈ d, r.depositor = x) ∧
        ∀ x ∈ date, r.arrivalDate = x) := by
  have hstate : ((st.map fun x => x.code + 1).all fun k => atPlace recordStates k == some r.state) =
      decide (∀ x ∈ st, r.state = x) := by
    cases st with
    | none => rfl
    | some x =>
      rw [Option.map_some, Option.all_some, atPlace_recordStates, Bool.eq_iff_iff, beq_iff_eq, decide_eq_true_iff,
        Option.some_inj, eq_comm]
      exact forall_mem_some.symm
  have hbox : ((box.map Fin.val).all fun c => r.compartment.map Fin.val == some c) =
      decide (∀ x ∈ box, r.compartment = some x) := by
    cases box with
    | none => rfl
    | some x =>
      rw [Option.map_some, Option.all_some, Bool.eq_iff_iff, beq_iff_eq, decide_eq_true_iff, forall_mem_some,
        ← Option.map_some, (Option.map_injective Fin.val_injective).eq_iff]
  have hdepositor : ((d.map Fin.val).all fun d => r.depositor.val == d) = decide (∀ x ∈ d, r.depositor = x) := by
    cases d with
    | none => rfl
    | some x =>
      rw [Option.map_some, Option.all_some, Bool.eq_iff_iff, beq_iff_eq, decide_eq_true_iff, forall_mem_some,
        Fin.val_inj]
  have hdate : date.all (· == r.arrivalDate) = decide (∀ x ∈ date, r.arrivalDate = x) := by
    cases date with
    | none => rfl
    | some x =>
      rw [Option.all_some, Bool.eq_iff_iff, beq_iff_eq, decide_eq_true_iff, forall_mem_some, eq_comm]
  rw [meetsFilter, criteria, hstate, hbox, hdepositor, hdate, Bool.decide_and, Bool.decide_and, Bool.decide_and,
    Bool.and_assoc, Bool.and_assoc]

end

/-! ## READ ADVICE -/

theorem isTag_iff {g : Nat} : isTag g = true ↔ 1 ≤ g ∧ g ≤ 999999999 := by
  rw [isTag, Bool.and_eq_true, decide_eq_true_iff, decide_eq_true_iff]
  rfl

theorem ownReadAdvice_of_tag {g : Nat} {a : Advice} (hvalid : s.store.valid = true) (hg : isTag g = true)
    (ha : adviceByTag s g = some a) : ownReadAdvice true g s = .done .ok [.advice a] s := by
  rw [ownReadAdvice, if_pos rfl, hg, if_neg (by decide), if_neg (not_valid hvalid), ha]

theorem ownReadAdvice_of_selector {v : Nat} (hvalid : s.store.valid = true) (hv : 1 ≤ v ∧ v ≤ 3) :
    ownReadAdvice false v s =
      .done .ok (.adviceSummary (adviceSummary s) :: (s.advices.entries.filter (selectsAdvice v)).map .advice) s := by
  rw [ownReadAdvice, if_neg Bool.false_ne_true, if_neg (by omega), if_neg (not_valid hvalid)]

theorem selectsAdvice_eq {v : Nat} :
    selectsAdvice v = fun a => decide (v = 3 ∨ v = 1 ∧ a.matched = none ∨ v = 2 ∧ a.matched ≠ none) := by
  funext a
  rw [selectsAdvice, Bool.eq_iff_iff]
  cases a.matched <;> simp

theorem openAdvices_eq : openAdvices s = (s.advices.entries.filter fun a => a.matched.isNone).length :=
  List.countP_eq_length_filter

/-! ## READ DEPOSITOR -/

theorem ownReadDepositor_of_slot {i : DepositorId} {d : Depositor} (hvalid : s.store.valid = true)
    (h : s.roster.get i = some d) : ownReadDepositor (some i.val) s = .done .ok [.depositor i d] s := by
  simp only [ownReadDepositor, index_val, if_neg (not_valid hvalid), h]

theorem ownReadDepositor_of_empty {i : DepositorId} (hvalid : s.store.valid = true) (h : s.roster.get i = none) :
    ownReadDepositor (some i.val) s = declined .notFound s := by
  simp only [ownReadDepositor, index_val, if_neg (not_valid hvalid), h]

theorem ownReadDepositor_none (hvalid : s.store.valid = true) :
    ownReadDepositor none s = .done .ok (occupiedSlots s) s := if_neg (not_valid hvalid)

end Sys2Proof.Machine

open Sys2Proof Sys2Proof.Machine

/-- Settles O13: each read answers with copies of the cells it names, in the order of the table. -/
theorem tableReadsReturnCopies : Obligations.TableReadsReturnCopies := by
  unfold Obligations.TableReadsReturnCopies
  refine fun l tag s hl hvalid => ⟨fun n r hn hr => ?_, fun n hn hnone => ?_, fun st c d date hdate => ?_,
    fun g a hg hg' ha => ?_, fun v hv hv' => ⟨adviceSummary s, ?_, rfl, rfl, openAdvices_eq, rfl, rfl⟩,
    fun i d hd => ?_, fun i hnone => ?_, ?_⟩
  · exact congrArg _ (takeRead hl rfl rfl Command.noConfusion (ownReadRecord_of_record hvalid hn hr))
  · exact congrArg _ (takeRead hl rfl rfl Command.noConfusion
      (ownReadRecord_of_none hvalid hn (find_eq_none (s := received l s) hnone)))
  · simp only [← meets_criteria]
    exact congrArg _ (takeRead (c := .listRecords) hl rfl rfl Command.noConfusion
      (ownListRecords_of_range (s := received l s) hvalid (criteria_inRange (st := st) (box := c) (d := d) hdate)))
  · exact congrArg _ (takeRead hl rfl rfl Command.noConfusion
      (ownReadAdvice_of_tag hvalid (isTag_iff.mpr ⟨hg, hg'⟩) ha))
  · rw [← selectsAdvice_eq]
    exact congrArg _ (takeRead hl rfl rfl Command.noConfusion (ownReadAdvice_of_selector hvalid ⟨hv, hv'⟩))
  · exact congrArg _ (takeRead hl rfl rfl Command.noConfusion (ownReadDepositor_of_slot hvalid hd))
  · exact congrArg _ (takeRead hl rfl rfl Command.noConfusion (ownReadDepositor_of_empty hvalid hnone))
  · exact congrArg _ (takeRead hl rfl rfl Command.noConfusion (ownReadDepositor_none hvalid))

end

section
-- One theorem after another: elaborated side by side, the whole text asks for more threads than the check has memory for.
set_option Elab.async false
/-! The commands that read the chutes, the station, the cabinet, the counters and the notices (R28, R57, R58, R104,
R197, R201). -/

namespace Sys2Proof.Machine

variable {s t : State} {l : LinkId} {tag n : Nat} {c : ChuteId} {code : CompletionCode}

/-! ## Chutes -/

theorem not_isValid : (!s.clock.isValid) = decide (s.clock.validity ≠ .valid) := by
  rw [Bool.eq_iff_iff, Bool.not_eq_true', ← Bool.not_eq_true, clock_isValid_iff, decide_eq_true_iff]

/-- R28: a chute is closed under any of its four conditions. -/
theorem chuteClosed_eq :
    chuteClosed s c =
      ((s.chutes.get c).masked || s.intakeClosed || decide (s.clock.validity ≠ .valid) || !s.store.valid) := by
  rw [← not_isValid, chuteClosed, closingConditions]
  simp only [List.any_cons, List.any_nil, id, Bool.or_false, Bool.or_assoc]

theorem setValue_conditions {a b c d : Bool} :
    BitVec.ofNat 4 (setValue [a, b, c, d]) =
      (if a then 1#4 else 0#4) ||| (if b then 2#4 else 0#4) ||| (if c then 4#4 else 0#4) |||
        (if d then 8#4 else 0#4) := by
  revert a b c d
  decide

theorem closingConditions_eq :
    BitVec.ofNat 4 (setValue (closingConditions s c)) =
      (if (s.chutes.get c).masked then 1#4 else 0#4) ||| (if s.intakeClosed then 2#4 else 0#4) |||
        (if decide (s.clock.validity ≠ .valid) then 4#4 else 0#4) ||| (if s.store.valid then 0#4 else 8#4) := by
  rw [closingConditions, setValue_conditions, not_isValid]
  cases s.store.valid <;> rfl

/-- R29: what the panel of a chute shows. -/
theorem panel_eq :
    panel s c =
      match (s.chutes.get c).hold, (s.chutes.get c).state with
      | some (i, _), _ => i
      | none, .idle =>
        if (s.chutes.get c).masked || s.intakeClosed || decide (s.clock.validity ≠ .valid) || !s.store.valid then
          .closed
        else .ready
      | none, .session _ _ => .sessionOpen
      | none, .drum _ _ _ => .turning
      | none, .fault => .fault := by
  rw [← chuteClosed_eq]
  unfold panel stateIndication
  cases (s.chutes.get c).hold with
  | some h => rfl
  | none => cases (s.chutes.get c).state <;> rfl

theorem chuteCopy_eq {closed : Bool} {conditions : BitVec 4} {shown : Indication} (hclosed : chuteClosed s c = closed)
    (hconditions : BitVec.ofNat 4 (setValue (closingConditions s c)) = conditions) (hpanel : panel s c = shown) :
    chuteCopy s c =
      .chute { number := c, chute := s.chutes.get c, intakeClosed := s.intakeClosed, isClosed := closed,
               conditions := conditions, panel := shown } := by
  rw [chuteCopy, hclosed, hconditions, hpanel]
  rfl

/-! ## The cabinet -/

theorem cabinetSummary_eq :
    cabinetSummary s =
      { standardCount := (boxesOf s .standard).length
        coinCount := (boxesOf s .coin).length
        reserveStandard := s.cabinet.reserveStandard
        reserveCoin := s.cabinet.reserveCoin
        reservedStandard := (boxesOf s .standard).filter (isReserved s)
        reservedCoin := (boxesOf s .coin).filter (isReserved s)
        freeStandard := (((boxesOf s .standard).filter fun c => isReserved s c == false).map (freePlacesAt s)).sum
        freeReservedStandard :=
          (((boxesOf s .standard).filter fun c => isReserved s c == true).map (freePlacesAt s)).sum
        freeCoin := (((boxesOf s .coin).filter fun c => isReserved s c == false).map (freePlacesAt s)).sum
        freeReservedCoin := (((boxesOf s .coin).filter fun c => isReserved s c == true).map (freePlacesAt s)).sum
        lowStandard := s.cabinet.lowStandard
        lowCoin := s.cabinet.lowCoin
        spaceLow := s.store.params.spaceLow } := by
  rw [cabinetSummary, reservedBoxes_eq_filter, reservedBoxes_eq_filter, freePlaces_eq, freePlaces_eq, freePlaces_eq,
    freePlaces_eq]

/-- R107: the free places of a compartment of a class. -/
theorem freePlacesAt_of_mem {k : BoxClass} {b : CompartmentId} (h : b ∈ boxesOf s k) :
    freePlacesAt s b =
      if (s.box b).inService then
        capacity k - (s.box b).occupants.length - pendingAt s b
      else 0 := by
  have hk : (s.box b).cls = k := by simpa [boxesOf] using h
  rw [freePlacesAt, hk]

theorem map_freePlacesAt {k : BoxClass} {p : CompartmentId → Bool} :
    ((boxesOf s k).filter p).map (freePlacesAt s) =
      ((boxesOf s k).filter p).map fun b =>
        if (s.box b).inService then
          capacity k - (s.box b).occupants.length - pendingAt s b
        else 0 :=
  List.map_congr_left fun _ hb => freePlacesAt_of_mem (List.mem_filter.mp hb).1

theorem isReserved_funext :
    isReserved s = fun c =>
      decide ((List.finRange 48).countP (fun d => decide (c < d ∧ (s.box d).cls = (s.box c).cls)) <
        reserveOf s (s.box c).cls) := funext fun _ => isReserved_eq

theorem ownReadCompartment_val {b : CompartmentId} :
    ownReadCompartment (some b.val) s = .done .ok [compartmentCopy s b] s := by
  simp only [ownReadCompartment, index_val]

theorem ownReadChute_val : ownReadChute (some c.val) s = .done .ok [chuteCopy s c] s := by
  simp only [ownReadChute, index_val]

/-! ## Counters and notices -/

theorem ownReadCounters_eq {number : Option LinkId} :
    ownReadCounters l (number.map Fin.val) s = .done .ok (counterRecords (number.getD l) s) s := by
  cases number with
  | none => rfl
  | some i => simp only [ownReadCounters, Option.map_some, index_val, Option.getD_some]

/-- R201: the link's own counters count the frame of the command that reads them. -/
theorem counterRecords_received {i : LinkId} :
    counterRecords i (received l s) =
      [.lineCounters i (if i = l then (s.links.get l).counters.received else (s.links.get i).counters),
       .dateCounts s.register.current none, .dateCounts s.register.lastCounts (some s.register.lastDate)] := by
  have hcounters : ((received l s).link i).counters =
      if i = l then (s.links.get l).counters.received else (s.links.get i).counters := by
    rw [State.link]
    split
    next h =>
      rw [h, received_link]
      rfl
    next h => rw [received, modifyLink_get_ne h]
  rw [counterRecords, hcounters]
  rfl

theorem takeReadNotices (h : ReadyLink s l) :
    exec (.readNotices l tag) s =
      .next (doneAt l tag .ok [.notices (s.links.get l).notices]
        (withLink l { s.links.get l with notices := (s.links.get l).notices.map NoticeCell.taken } s)) := by
  refine congrArg _ (takePlain_done h rfl (fun hl => by cases hl) Command.noConfusion ?_)
  rw [ownReadNotices, State.link, received_link, modifyLink_received, received_withLink]
  rfl

end Sys2Proof.Machine

open Sys2Proof Sys2Proof.Machine

/-- Settles O14: the copies are the cells themselves, with what the panel and the reserves make of them. -/
theorem blockReadsReturnCopies : Obligations.BlockReadsReturnCopies := by
  unfold Obligations.BlockReadsReturnCopies
  refine fun l tag s hl => ⟨?_, fun c => ?_, ?_, ?_, fun c => ?_, fun number => ?_, takeReadNotices hl⟩
  · refine congrArg _ ((takeRead hl rfl rfl Command.noConfusion rfl).trans ?_)
    refine congrArg (doneAt l tag .ok · s) (List.map_congr_left fun c _ => ?_)
    exact chuteCopy_eq (s := s) chuteClosed_eq closingConditions_eq panel_eq
  · refine congrArg _ ((takeRead hl rfl rfl Command.noConfusion ownReadChute_val).trans ?_)
    refine congrArg (fun x => doneAt l tag .ok [x] s) ?_
    exact chuteCopy_eq (s := s) chuteClosed_eq closingConditions_eq panel_eq
  · exact congrArg _ (takeRead hl rfl rfl Command.noConfusion rfl)
  · refine congrArg _ ((takeRead hl rfl rfl Command.noConfusion rfl).trans ?_)
    refine congrArg (doneAt l tag .ok · s) (congrArg₂ List.cons (congrArg ResultRecord.compartmentSummary ?_)
      (List.map_congr_left fun c _ => ?_))
    · refine (cabinetSummary_eq (s := s)).trans ?_
      rw [map_freePlacesAt, map_freePlacesAt, map_freePlacesAt, map_freePlacesAt, isReserved_funext]
      rfl
    · exact congrArg (fun b => ResultRecord.compartment ⟨c, s.box c, pendingAt s c, b⟩) isReserved_eq
  · refine congrArg _ ((takeRead hl rfl rfl Command.noConfusion ownReadCompartment_val).trans ?_)
    refine congrArg (fun x => doneAt l tag .ok [x] s) ?_
    exact congrArg (fun b => ResultRecord.compartment ⟨c, s.box c, pendingAt s c, b⟩) isReserved_eq
  · refine congrArg _ (takeRead hl rfl rfl Command.noConfusion (ownReadCounters_eq.trans ?_))
    rw [counterRecords_received]

end

section
-- One theorem after another: elaborated side by side, the whole text asks for more threads than the check has memory for.
set_option Elab.async false
/-! What the operands of the commands say, and the commands of the windows, the parameters and the clock (R138, R140,
R174, R177, R180, Table 41). -/

namespace Sys2Proof.Machine

variable {s t : State} {l : LinkId} {tag n v lo hi : Nat} {code : CompletionCode} {results : List ResultRecord}

/-! ## Operands by their place -/

theorem atPlace_whether {b : Bool} : atPlace [true, false] (if b then 1 else 2) = some b := by cases b <;> rfl

theorem atPlace_boxClasses {k : BoxClass} : atPlace boxClasses (if k = .standard then 1 else 2) = some k := by
  cases k <;> rfl

theorem atPlace_depositorStates {active : Bool} :
    atPlace depositorStates (if active then 1 else 2) = some (if active then .active else .suspended) := by
  cases active <;> rfl

theorem atPlace_bagKinds {coin : Bool} :
    atPlace bagKinds (if coin then 2 else 1) = some (if coin then .coin else .note) := by
  cases coin <;> rfl

theorem atPlace_quantities {q : Quantity} : atPlace quantities (quantities.idxOf q + 1) = some q := by
  cases q <;> rfl

theorem atPlace_conditions {c : Condition} : atPlace conditions (conditions.idxOf c + 1) = some c := by
  cases c <;> rfl

theorem atPlace_ruleActions {a : RuleAction} : atPlace ruleActions (ruleActions.idxOf a + 1) = some a := by
  cases a <;> rfl

theorem ruleOf_places {q : Quantity} {c : Condition} {reference : Int} {a : RuleAction}
    (hlo : -2147483648 ≤ reference) (hhi : reference ≤ 2147483647) :
    ruleOf ⟨quantities.idxOf q + 1, conditions.idxOf c + 1, reference, ruleActions.idxOf a + 1⟩ =
      some ⟨q, c, reference, a⟩ := by
  simp only [ruleOf, atPlace_quantities, atPlace_conditions, atPlace_ruleActions]
  exact if_pos ⟨hlo, hhi⟩

/-! ## Windows -/

section
variable {on : Bool} {links ops : Nat} {w : Windows}

theorem protectionOf_inRange {base ignore : Nat} (hbase : base < 64) (hignore : ignore < 64) (hlinks : links < 8)
    (hops : ops < 8) :
    protectionOf (if on then 1 else 2) base ignore links ops =
      some ⟨on, .ofNat 6 base, .ofNat 6 ignore, .ofNat 3 links, .ofNat 3 ops⟩ := by
  rw [protectionOf, decide_eq_true hbase, decide_eq_true hignore, decide_eq_true hlinks, decide_eq_true hops]
  cases on <;> rfl

theorem detectionOf_inRange {lo hi tlo thi : Nat} (hlohi : lo ≤ hi) (hhi : hi < 48) (htlo : tlo ≤ 86399)
    (hthi : thi ≤ 86399) (hlinks : links < 8) (hops : ops < 8) :
    detectionOf (if on then 1 else 2) lo hi tlo thi links ops =
      some ⟨on, lo, hi, tlo, thi, .ofNat 3 links, .ofNat 3 ops⟩ := by
  have htlo' : tlo ≤ Config.lastSecond := htlo
  have hthi' : thi ≤ Config.lastSecond := hthi
  rw [detectionOf, decide_eq_true hlohi, decide_eq_true hhi, decide_eq_true htlo', decide_eq_true hthi',
    decide_eq_true hlinks, decide_eq_true hops]
  cases on <;> rfl

theorem windowsWith_protection {base ignore : Nat} {i : Fin 4} (hbase : base < 64) (hignore : ignore < 64)
    (hlinks : links < 8) (hops : ops < 8) :
    windowsWith w 1 i.val (some (.protection (if on then 1 else 2) base ignore links ops)) =
      some { w with
        protection := w.protection.set i ⟨on, .ofNat 6 base, .ofNat 6 ignore, .ofNat 3 links, .ofNat 3 ops⟩ } := by
  simp only [windowsWith, if_true, index_val, protectionOf_inRange hbase hignore hlinks hops, Option.map_some]

theorem windowsWith_detection {lo hi tlo thi : Nat} {i : Fin 6} (hlohi : lo ≤ hi) (hhi : hi < 48)
    (htlo : tlo ≤ 86399) (hthi : thi ≤ 86399) (hlinks : links < 8) (hops : ops < 8) :
    windowsWith w 2 i.val (some (.detection (if on then 1 else 2) lo hi tlo thi links ops)) =
      some { w with detection := w.detection.set i ⟨on, lo, hi, tlo, thi, .ofNat 3 links, .ofNat 3 ops⟩ } := by
  simp only [windowsWith, Nat.reduceEqDiff, if_false, if_true, index_val,
    detectionOf_inRange hlohi hhi htlo hthi hlinks hops, Option.map_some]

theorem windowsWith_protection_none {i : Fin 4} : windowsWith w 1 i.val none = some w := by
  simp only [windowsWith, if_true, index_val]

theorem windowsWith_detection_none {i : Fin 6} : windowsWith w 2 i.val none = some w := by
  simp only [windowsWith, Nat.reduceEqDiff, if_false, if_true, index_val]

/-- R138, R141: a window written, and the windows as they then stand. -/
theorem takeSetWindow {kind number : Nat} {fields : Option WindowArgs} (h : ReadyLink s 0)
    (hvalid : s.store.valid = true) (hw : windowsWith s.windows kind number fields = some w) :
    exec (.setWindow 0 tag kind number fields) s =
      .next (doneAt 0 tag .ok (windowRecords { s with windows := w }) { s with windows := w }) := by
  refine congrArg _ (takePlain_done (c := .setWindow) h rfl (fun hl => by cases hl) Command.noConfusion ?_)
  have hw' : windowsWith (received 0 s).windows kind number fields = some w := hw
  rw [ownSetWindow, hw']
  exact if_neg (not_valid hvalid)

/-- R140: the compartments that a base and its ignored bits name. -/
theorem protectionTest_hits (c : CompartmentId) :
    let hit (base ignore : BitVec 6) : Bool :=
      ProtectionWindow.test { enabled := true, base, ignore, links := 7, operations := 7 } 1 .openDoor c
    (hit 36 0 = true ↔ c.val = 36) ∧ (hit 36 3 = true ↔ 36 ≤ c.val ∧ c.val ≤ 39) ∧
      (hit 0 15 = true ↔ c.val ≤ 15) ∧ (hit 32 15 = true ↔ 32 ≤ c.val) ∧ hit 0 63 = true := by
  revert c
  decide

end

/-! ## Parameters -/

theorem parameterAllowed_own (h : parameterLink n = l) : parameterAllowed l (some n) = true := by
  subst h
  rw [parameterAllowed, Option.all_some, beq_self_eq_true, Bool.or_true, Bool.and_true, parameterLink]
  split <;> rfl

theorem parameterAllowed_other (hone : 1 ≤ n) (hmost : n ≤ 15) (h : parameterLink n ≠ l) :
    parameterAllowed l (some n) = false := by
  have hzero : (n == 0) = false := beq_eq_false_iff_ne.mpr (by omega)
  rw [parameterAllowed, Option.all_some, hzero, decide_eq_false (by omega), beq_eq_false_iff_ne.mpr h]
  exact Bool.and_false _

theorem parameterAllowed_none (h : l ≤ 1) : parameterAllowed l none = true := by
  revert h
  revert l
  decide

theorem parameterInRange_iff (hrange : parameterRange n = some (lo, hi)) :
    parameterInRange n v = true ↔ lo ≤ v ∧ v ≤ hi := by
  rw [parameterInRange, hrange]
  simp only [Bool.and_eq_true, decide_eq_true_eq]

/-- Table 41: a parameter written in its range reads back. -/
theorem read_write_self {p : Params} (hrange : parameterRange n = some (lo, hi)) (hlo : lo ≤ v) (hhi : v ≤ hi) :
    (p.write n v).read n = v := by
  unfold parameterRange at hrange
  split at hrange <;> cases hrange
  case h_9 =>
    have hv : v = 1 ∨ v = 2 := by omega
    rcases hv with rfl | rfl <;> rfl
  all_goals rfl

/-- Table 41: a parameter written leaves the others as they were. -/
theorem read_write_ne {p : Params} {m : Nat} (h : m ≠ n) : (p.write n v).read m = p.read m := by
  unfold Params.write
  split
  all_goals
    unfold Params.read
    split <;> first | rfl | exact absurd rfl h

/-- R174: the low marks are tested at each writing of their parameter. -/
theorem writeParameter_ten :
    writeParameter 10 v s =
      raiseTimes .spaceLow
        ((if decide (freePlaces s .standard false ≤ v) && !s.cabinet.lowStandard then 1 else 0) +
          (if decide (freePlaces s .coin false ≤ v) && !s.cabinet.lowCoin then 1 else 0))
        { s with
          store := { s.store with params := s.store.params.write 10 v }
          cabinet :=
            { s.cabinet with
              lowStandard := decide (freePlaces s .standard false ≤ v)
              lowCoin := decide (freePlaces s .coin false ≤ v) } } := rfl

theorem writeParameter_of_ne (h : n ≠ 10) :
    writeParameter n v s = { s with store := { s.store with params := s.store.params.write n v } } := if_neg h

section
variable {number value : Option Nat}

/-- R177: SET PARAMETER with its answer, from a READY link that may name the parameter. -/
theorem takeSetParameter (h : ReadyLink s l) (hallowed : parameterAllowed l number = true)
    (hform : (number.isSome == value.isSome) = true)
    (ho : ownSetParameter l number value (received l s) = withParameters l code (received l t)) :
    exec (.setParameter l tag number value) s = .next (doneAt l tag code [parameterRecord l t] t) :=
  congrArg _ (takeCommand_done h hallowed hform (fun hl => by cases hl) Command.noConfusion ho)

end

theorem ownSetParameter_of_outOfRange (h : parameterInRange n v = false) :
    ownSetParameter l (some n) (some v) s = withParameters l .outOfRange s := by
  simp only [ownSetParameter, h, Bool.not_false, if_true]

theorem ownSetParameter_of_clockInvalid (hvalid : s.store.valid = true) (hrange : parameterInRange 15 v = true)
    (hclock : s.clock.validity ≠ .valid) :
    ownSetParameter l (some 15) (some v) s = withParameters l .clockInvalid s := by
  have hclock' : s.clock.isValid = false := by rwa [← Bool.not_eq_true, clock_isValid_iff]
  simp only [ownSetParameter, hrange, hvalid, hclock', Bool.not_true, Bool.not_false, Bool.false_eq_true, if_false,
    and_self, if_true]

theorem ownSetParameter_of_inRange (hvalid : s.store.valid = true) (hrange : parameterInRange n v = true)
    (hclock : n = 15 → s.clock.validity = .valid) :
    ownSetParameter l (some n) (some v) s = withParameters l .ok (writeParameter n v s) := by
  have hclock' : ¬ (n = 15 ∧ (!s.clock.isValid) = true) := fun ⟨hn, hbad⟩ => by
    rw [clock_isValid_iff.mpr (hclock hn)] at hbad
    cases hbad
  simp only [ownSetParameter, hrange, hvalid, Bool.not_true, Bool.false_eq_true, if_false, if_neg hclock']

theorem writeParameter_received : writeParameter n v (received l s) = received l (writeParameter n v s) := by
  unfold writeParameter
  dsimp only
  split
  · rw [← testLowMarks_received]
    rfl
  · rfl

theorem parameterRecord_writeParameter :
    parameterRecord l (writeParameter n v s) =
      parameterRecord l { s with store := { s.store with params := s.store.params.write n v } } := by
  unfold writeParameter
  dsimp only
  split
  · rw [parameterRecord, testLowMarks_store]
    rfl
  · rfl

/-! ## The clock set -/

theorem ownSetClock_of_inRange {d : Nat} (hvalid : s.store.valid = true) (ht : v ≤ 86399) (hd : d ≤ 65535) :
    ownSetClock (some v) (some d) s = withClock .ok (setReading v d s) := by
  have hrange : ¬ (Config.lastSecond < v ∨ Config.lastDate < d) :=
    not_or.mpr ⟨Nat.not_lt.mpr ht, Nat.not_lt.mpr hd⟩
  simp only [ownSetClock, if_neg hrange, if_neg (not_valid hvalid)]

theorem takeSetClock {seconds date : Option Nat} (h : ReadyLink s 0) (hform : (seconds.isSome == date.isSome) = true)
    (ho : ownSetClock seconds date (received 0 s) = withClock code (received 0 t)) :
    exec (.setClock 0 tag seconds date) s = .next (doneAt 0 tag code [clockSummary t] t) :=
  congrArg _ (takeCommand_done h rfl hform (fun hl => by cases hl) Command.noConfusion ho)

theorem setReading_same {d : Nat} (h : d = s.clock.date) :
    setReading v d s = { s with clock := { s.clock with seconds := v, date := d, validity := .valid } } := if_pos h

/-- R180: the date changed by SET CLOCK. -/
theorem setReading_other {d : Nat} (h : d ≠ s.clock.date) :
    setReading v d s =
      raise .dateRolled
        { s with
          clock := ⟨v, d, .valid, some ⟨d, v, .setClock⟩⟩
          register := { s.register with current := .zero }
          advices := s.advices.expired d
          roster := s.roster.map (Option.map Depositor.renewed) } := if_neg h

theorem setReading_received {d : Nat} : setReading v d (received l s) = received l (setReading v d s) := by
  by_cases h : d = s.clock.date
  · rw [setReading_same h, setReading_same (s := received l s) h]
    rfl
  · rw [setReading_other h, setReading_other (s := received l s) h, ← raise_received]
    rfl

end Sys2Proof.Machine

open Sys2Proof Sys2Proof.Machine

/-- Settles O46: a window in range is written whole, and its mask names the compartments of its base. -/
theorem windowsAreReplacedAndMatched : Obligations.WindowsAreReplacedAndMatched := by
  unfold Obligations.WindowsAreReplacedAndMatched
  refine ⟨fun tag s hl hvalid => ⟨fun i on base ignore links ops hbase hignore hlinks hops => ?_,
    fun i on lo hi tlo thi links ops hlohi hhi htlo hthi hlinks hops => ?_, fun i => ?_, fun i => ?_⟩,
    protectionTest_hits⟩
  · exact takeSetWindow hl hvalid (windowsWith_protection hbase hignore hlinks hops)
  · exact takeSetWindow hl hvalid (windowsWith_detection hlohi hhi htlo hthi hlinks hops)
  · exact takeSetWindow hl hvalid windowsWith_protection_none
  · exact takeSetWindow hl hvalid windowsWith_detection_none

/-- Settles O26: a parameter in range is written alone, and the low marks are tested where it is their own. -/
theorem setParameterWritesTheValue : Obligations.SetParameterWritesTheValue := by
  unfold Obligations.SetParameterWritesTheValue
  refine fun tag s hvalid => ⟨fun l n v lo hi hl hlink hrange hlo hhi hclock => ?_,
    fun l n v lo hi hl hlink hrange hout => ?_, fun v hl hv hclock => ?_, fun l n v hl hone hmost hother => ?_,
    fun l hl hready => ?_⟩
  · refine ⟨s.store.params.write n v, read_write_self hrange hlo hhi, fun m hm => read_write_ne hm, ?_⟩
    have hown := ownSetParameter_of_inRange (l := l) (s := received l s) hvalid
      ((parameterInRange_iff hrange).mpr ⟨hlo, hhi⟩) hclock
    rw [writeParameter_received] at hown
    refine (takeSetParameter hl (parameterAllowed_own hlink) rfl hown).trans ?_
    rw [parameterRecord_writeParameter]
    refine congrArg (fun u => Host.Outcome.next (doneAt l tag .ok _ u)) ?_
    split
    next hten =>
      subst hten
      exact writeParameter_ten
    next hten => exact writeParameter_of_ne hten
  · have hrange' : parameterInRange n v = false := by
      rw [← Bool.not_eq_true, parameterInRange_iff hrange]
      omega
    exact takeSetParameter hl (parameterAllowed_own hlink) rfl (ownSetParameter_of_outOfRange hrange')
  · exact takeSetParameter (l := 0) hl (parameterAllowed_own rfl) rfl
      (ownSetParameter_of_clockInvalid (s := received 0 s) hvalid
        ((parameterInRange_iff (lo := 0) (hi := 86399) rfl).mpr ⟨Nat.zero_le v, hv⟩) hclock)
  · exact congrArg _ (takeCommand_notForRole hl (parameterAllowed_other hone hmost hother))
  · exact takeSetParameter hready (parameterAllowed_none hl) rfl (if_neg (not_valid hvalid))

/-- Settles O28: the reading is set, and with a new date the day's counts, the advices and the allowances. -/
theorem setClockWritesTheReading : Obligations.SetClockWritesTheReading := by
  unfold Obligations.SetClockWritesTheReading
  refine fun tag t d s hl hvalid ht hd => ⟨fun hsame => ?_, fun hother => ?_, ?_⟩
  · have hown := ownSetClock_of_inRange (s := received 0 s) hvalid ht hd
    rw [setReading_received, setReading_same hsame] at hown
    exact takeSetClock hl rfl hown
  · have hown := ownSetClock_of_inRange (s := received 0 s) hvalid ht hd
    rw [setReading_received, setReading_other hother] at hown
    exact takeSetClock hl rfl hown
  · exact takeSetClock hl rfl (if_neg (not_valid hvalid))

end

section
-- One theorem after another: elaborated side by side, the whole text asks for more threads than the check has memory for.
set_option Elab.async false
/-! The layout of the cabinet, the rules and the depositors (R24, R25, R106 to R109, R84). -/

namespace Sys2Proof.Machine

variable {s t : State} {tag n : Nat} {k : BoxClass} {c : CompartmentId} {service : Bool}

/-! ## What retries and low-mark tests leave -/

/-- A retry, made where places may have come free, and a test of the low marks. -/
def retestedIf (b : Bool) (t : State) : State := testLowMarks (if b then retry t else t)

theorem retestedIf_true : retestedIf true t = testLowMarks (retry t) := rfl

theorem retestedIf_false : retestedIf false t = testLowMarks t := rfl

theorem retestedIf_cabinet {b : Bool} :
    (retestedIf b t).cabinet.compartments = t.cabinet.compartments ∧
      (retestedIf b t).cabinet.reserveStandard = t.cabinet.reserveStandard ∧
      (retestedIf b t).cabinet.reserveCoin = t.cabinet.reserveCoin := by
  cases b with
  | true =>
    obtain ⟨hstandard, hcoin⟩ := testLowMarks_reserves (s := retry t)
    rw [retestedIf_true, testLowMarks_compartments, hstandard, hcoin, retry_cabinet]
    exact ⟨rfl, rfl, rfl⟩
  | false =>
    obtain ⟨hstandard, hcoin⟩ := testLowMarks_reserves (s := t)
    rw [retestedIf_false, testLowMarks_compartments, hstandard, hcoin]
    exact ⟨rfl, rfl, rfl⟩

theorem retestedIf_of_not_blocked {b : Bool} (h : ∀ n src, t.station.state ≠ .blocked n src) :
    (retestedIf b t).register = t.register ∧ (retestedIf b t).station = t.station := by
  cases b with
  | true =>
    rw [retestedIf_true, retry_of_not_blocked h, testLowMarks_register, testLowMarks_station]
    exact ⟨rfl, rfl⟩
  | false =>
    rw [retestedIf_false, testLowMarks_register, testLowMarks_station]
    exact ⟨rfl, rfl⟩

theorem retestedIf_eq {b : Bool} :
    retestedIf b t =
      { t with
        register := (retestedIf b t).register
        station := (retestedIf b t).station
        cabinet := (retestedIf b t).cabinet
        links := (retestedIf b t).links } := by
  cases b with
  | true => rw [retestedIf_true, testLowMarks_eq, retry_eq]
  | false => rw [retestedIf_false, testLowMarks_eq]

theorem retestedIf_received {b : Bool} {l : LinkId} : retestedIf b (received l t) = received l (retestedIf b t) := by
  cases b with
  | true => rw [retestedIf_true, retestedIf_true, retry_received, testLowMarks_received]
  | false => rw [retestedIf_false, retestedIf_false, testLowMarks_received]

/-! ## SET COMPARTMENT -/

/-- R106: a compartment keeps its class, or is empty, unclaimed and spared by the reserve. -/
def ClassFree (s : State) (c : CompartmentId) (k : BoxClass) : Prop :=
  let b := s.cabinet.compartments.get c
  b.cls = k ∨ b.occupants = [] ∧ pendingAt s c = 0 ∧ b.door.operation = none ∧
    reserveOf s b.cls < (boxesOf s b.cls).length

theorem compartmentRefusal_eq_none (hclass : ClassFree s c k) (hservice : service = true ∨ pendingAt s c = 0) :
    compartmentRefusal s c k service = none := by
  have hout : ¬ ((s.box c).inService = true ∧ (!service) = true ∧ pendingAt s c ≠ 0) := by
    rintro ⟨_, hoff, hpending⟩
    rcases hservice with rfl | hzero
    · cases hoff
    · exact hpending hzero
  rcases hclass with hsame | ⟨hempty, hpending, hop, hreserve⟩
  · have hsame' : ¬ ((s.box c).cls ≠ k) := fun h => h hsame
    simp only [compartmentRefusal, hsame', false_and, if_false, if_neg hout]
  · have hsmall : ¬ (classTooSmall s (s.box c).cls = true) := by
      rw [classTooSmall, decide_eq_true_iff]
      exact fun h => by
        have : reserveOf s (s.box c).cls < (boxesOf s (s.box c).cls).length := hreserve
        omega
    have hempty' : ¬ ((s.box c).occupants ≠ []) := fun h => h hempty
    have hbusy : ¬ (pendingAt s c ≠ 0 ∨ (s.box c).door.operation.isSome = true) := by
      rw [show (s.box c).door.operation = none from hop]
      exact fun h => h.elim (fun h => h hpending) fun h => by cases h
    simp only [compartmentRefusal, hsmall, hempty', hbusy, Bool.false_eq_true, and_false, if_false, if_neg hout]

theorem configured_eq {b : Compartment} (h : b.cls = k ∨ b.occupants = []) :
    b.configured k service =
      { b with cls := k, inService := service, handling := if b.cls = k then b.handling else none,
               overfull := if b.cls = k then b.overfull else false } := by
  unfold Compartment.configured
  split
  next hk => rw [← hk]
  next hk =>
    rw [Compartment.withOccupants, h.resolve_left hk]
    rfl

theorem configureBox_eq :
    configureBox c k service s =
      retestedIf (decide ((s.box c).cls ≠ k ∨ (!(s.box c).inService) = true ∧ service = true))
        (modifyBox c (Compartment.configured k service) s) := by
  simp only [retestedIf, decide_eq_true_eq]
  rfl

theorem configureBox_received :
    configureBox c k service (received 1 s) = received 1 (configureBox c k service s) := by
  rw [configureBox_eq, configureBox_eq, ← retestedIf_received]
  rfl

theorem takeSetCompartment (h : ReadyLink s 1) (hvalid : s.store.valid = true) (hclass : ClassFree s c k)
    (hservice : service = true ∨ pendingAt s c = 0) :
    exec (.setCompartment 1 tag c.val (if k = .standard then 1 else 2) (if service then 1 else 2)) s =
      .next (doneAt 1 tag .ok [] (configureBox c k service s)) := by
  refine congrArg _ (takePlain_done (c := .setCompartment) h rfl (fun hl => by cases hl) Command.noConfusion ?_)
  have hnone := compartmentRefusal_eq_none (s := received 1 s) hclass hservice
  simp only [ownSetCompartment, index_val, atPlace_boxClasses, atPlace_whether, hnone, configureBox_received]
  exact if_neg (not_valid hvalid)

/-! ## SET RESERVE and SET RULE -/

theorem reserve_eq : reserve k n s = retestedIf (decide (reserveOf s k ≠ n)) (withReserve k n s) := by
  simp only [retestedIf, decide_eq_true_eq]
  rfl

theorem reserve_received : reserve k n (received 1 s) = received 1 (reserve k n s) := by
  rw [reserve_eq, reserve_eq, ← retestedIf_received]
  cases k <;> rfl

theorem ownSetReserve_of_place {code : Nat} (hvalid : s.store.valid = true) (hk : atPlace boxClasses code = some k)
    (hmax : n ≤ maxReserve k) (hn : n ≤ (boxesOf s k).length) :
    ownSetReserve code n s = .done .ok [] (reserve k n s) := by
  have hrange : ¬ (maxReserve k < n ∨ (boxesOf s k).length < n) := by omega
  simp only [ownSetReserve, hk, if_neg hrange, if_neg (not_valid hvalid)]

theorem takeSetReserve {code : Nat} (h : ReadyLink s 1) (hvalid : s.store.valid = true)
    (hk : atPlace boxClasses code = some k) (hmax : n ≤ maxReserve k) (hn : n ≤ (boxesOf s k).length) :
    exec (.setReserve 1 tag code n) s = .next (doneAt 1 tag .ok [] (reserve k n s)) := by
  refine congrArg _ (takePlain_done (c := .setReserve) h rfl (fun hl => by cases hl) Command.noConfusion ?_)
  rw [ownSetReserve_of_place (s := received 1 s) hvalid hk hmax hn, reserve_received]

theorem takeSetRule {i : Fin 8} {a : RuleArgs} {r : CheckRule} (h : ReadyLink s 1) (hvalid : s.store.valid = true)
    (hr : ruleOf a = some r) :
    exec (.setRule 1 tag (i.val + 1) a) s =
      .next (doneAt 1 tag .ok []
        { s with station := { s.station with rules := s.station.rules.set i r } }) := by
  refine congrArg _ (takePlain_done (c := .setRule) h rfl (fun hl => by cases hl) Command.noConfusion ?_)
  simp only [ownSetRule, Nat.add_one_ne_zero, if_false, Nat.add_sub_cancel, index_val, hr]
  exact if_neg (not_valid hvalid)

end Sys2Proof.Machine

open Sys2Proof Sys2Proof.Machine

/-- Settles O42: one cell is written; the retry and the low marks follow it. -/
theorem layoutAndRuleCommandsWriteTheirCell : Obligations.LayoutAndRuleCommandsWriteTheirCell := by
  unfold Obligations.LayoutAndRuleCommandsWriteTheirCell
  refine fun tag s hl hvalid => ⟨fun c k service hclass hservice => ⟨_, takeSetCompartment hl hvalid hclass hservice, ?_⟩,
    fun n hmax hn => ⟨_, takeSetReserve hl hvalid (k := .standard) rfl hmax hn, ?_⟩,
    fun n hmax hn => ⟨_, takeSetReserve hl hvalid (k := .coin) rfl hmax hn, ?_⟩,
    fun i q c reference a hlo hhi => takeSetRule hl hvalid (ruleOf_places hlo hhi)⟩
  · obtain ⟨b, hb⟩ : ∃ b, configureBox c k service s =
        retestedIf b (modifyBox c (Compartment.configured k service) s) := ⟨_, configureBox_eq⟩
    rw [hb]
    obtain ⟨hboxes, hstandard, hcoin⟩ :=
      retestedIf_cabinet (b := b) (t := modifyBox c (Compartment.configured k service) s)
    refine ⟨?_, fun i hi => ?_, hstandard, hcoin, fun h => ?_, retestedIf_eq⟩
    · rw [hboxes, modifyBox, Table.get_set_self]
      exact configured_eq (hclass.imp_right And.left)
    · rw [hboxes, modifyBox, Table.get_set_ne _ _ hi]
    · exact retestedIf_of_not_blocked (t := modifyBox c (Compartment.configured k service) s) h
  · obtain ⟨b, hb⟩ : ∃ b, reserve .standard n s = retestedIf b (withReserve .standard n s) := ⟨_, reserve_eq⟩
    rw [hb]
    obtain ⟨hboxes, hstandard, hcoin⟩ := retestedIf_cabinet (b := b) (t := withReserve .standard n s)
    exact ⟨hstandard, hcoin, hboxes, fun h => retestedIf_of_not_blocked (t := withReserve .standard n s) h,
      retestedIf_eq⟩
  · obtain ⟨b, hb⟩ : ∃ b, reserve .coin n s = retestedIf b (withReserve .coin n s) := ⟨_, reserve_eq⟩
    rw [hb]
    obtain ⟨hboxes, hstandard, hcoin⟩ := retestedIf_cabinet (b := b) (t := withReserve .coin n s)
    exact ⟨hcoin, hstandard, hboxes, fun h => retestedIf_of_not_blocked (t := withReserve .coin n s) h,
      retestedIf_eq⟩

end

section
-- One theorem after another: elaborated side by side, the whole text asks for more threads than the check has memory for.
set_option Elab.async false
/-! The roster of depositors (R18 to R25). -/

namespace Sys2Proof.Machine

variable {s t : State} {tag : Nat} {d : DepositorId}

/-! ## The fields of a depositor -/

/-- The fields of SET DEPOSITOR as its frame carries them. -/
def depositorArgs (credential permissions allowance : Nat) (active coin clear : Bool) : DepositorArgs :=
  ⟨credential, if active then 1 else 2, permissions, allowance, if coin then 2 else 1, if clear then 1 else 2⟩

section
variable {credential permissions allowance : Nat} {active coin clear : Bool}

theorem depositorArgs_inRange (hone : 1 ≤ credential) (hmost : credential ≤ 9999999999) (hperm : permissions < 16)
    (hallow : 1 ≤ allowance) (hallow' : allowance ≤ 20) :
    depositorInRange (depositorArgs credential permissions allowance active coin clear) = true := by
  have hmost' : credential ≤ Config.maxCredential := hmost
  simp only [depositorInRange, depositorArgs, atPlace_depositorStates, atPlace_bagKinds, hone, hmost', hperm,
    hallow, hallow', decide_true, Option.isSome_some, Bool.and_true, Bool.true_and]
  cases clear <;> rfl

/-- R24: what a slot replaced keeps, and what remains of its allowance. -/
theorem replaced_args {e : Depositor} {st : DepositorState} {k : BagKind} :
    e.replaced (depositorArgs credential permissions allowance active coin clear) st k =
      let moved : Depositor :=
        { e with
          credential, state := st, kind := k, allowance, permissions := .ofNat 4 permissions
          remaining :=
            if e.allowance < allowance then e.remaining + (allowance - e.allowance)
            else if allowance < e.allowance then min e.remaining allowance
            else e.remaining }
      if clear then { moved with declared := 0, counted := 0, saturation := 0, discrepancies := 0 } else moved := by
  cases clear <;> rfl

theorem depositorArgs_state :
    atPlace depositorStates (depositorArgs credential permissions allowance active coin clear).state =
      some (if active then .active else .suspended) := atPlace_depositorStates

theorem depositorArgs_kind :
    atPlace bagKinds (depositorArgs credential permissions allowance active coin clear).kind =
      some (if coin then .coin else .note) := atPlace_bagKinds

section
variable (hvalid : s.store.valid = true)
  (hrange : depositorInRange (depositorArgs credential permissions allowance active coin clear) = true)
include hvalid hrange

/-- R24: an empty slot written, with a credential that no other slot has. -/
theorem ownSetDepositor_of_empty (hslot : (slotOfCredential s credential).any (· != d) = false)
    (hd : s.roster.get d = none) :
    ownSetDepositor d.val (depositorArgs credential permissions allowance active coin clear) s =
      .done .ok []
        { s with
          roster := s.roster.set d (some
            (newDepositor (depositorArgs credential permissions allowance active coin clear)
              (if active then .active else .suspended) (if coin then .coin else .note))) } := by
  have hslot' : ¬ ((slotOfCredential s
      (depositorArgs credential permissions allowance active coin clear).credential).any (· != d) = true) := by
    rw [depositorArgs, hslot]
    exact Bool.false_ne_true
  simp only [ownSetDepositor, hrange, index_val, depositorArgs_state, depositorArgs_kind, if_neg (not_valid hvalid),
    if_neg hslot', hd]

/-- R24: a slot replaced, with a credential that no other slot has. -/
theorem ownSetDepositor_of_slot {old : Depositor} (hslot : (slotOfCredential s credential).any (· != d) = false)
    (hd : s.roster.get d = some old) :
    ownSetDepositor d.val (depositorArgs credential permissions allowance active coin clear) s =
      .done .ok []
        { s with
          roster := s.roster.set d (some
            (old.replaced (depositorArgs credential permissions allowance active coin clear)
              (if active then .active else .suspended) (if coin then .coin else .note))) } := by
  have hslot' : ¬ ((slotOfCredential s
      (depositorArgs credential permissions allowance active coin clear).credential).any (· != d) = true) := by
    rw [depositorArgs, hslot]
    exact Bool.false_ne_true
  simp only [ownSetDepositor, hrange, index_val, depositorArgs_state, depositorArgs_kind, if_neg (not_valid hvalid),
    if_neg hslot', hd]

theorem ownSetDepositor_of_duplicate (hslot : (slotOfCredential s credential).any (· != d) = true) :
    ownSetDepositor d.val (depositorArgs credential permissions allowance active coin clear) s =
      declined .duplicate s := by
  simp only [ownSetDepositor, hrange, index_val, depositorArgs_state, depositorArgs_kind, if_neg (not_valid hvalid)]
  exact if_pos hslot

end

theorem takeSetDepositor {code : CompletionCode} (h : ReadyLink s 1)
    (ho : ownSetDepositor d.val (depositorArgs credential permissions allowance active coin clear) (received 1 s) =
      .done code [] (received 1 t)) :
    exec (.setDepositor 1 tag d.val (depositorArgs credential permissions allowance active coin clear)) s =
      .next (doneAt 1 tag code [] t) :=
  congrArg _ (takePlain_done (c := .setDepositor) h rfl (fun hl => by cases hl) Command.noConfusion ho)

end

/-! ## The slot of a credential -/

section
variable {n : Nat}

theorem slotOfCredential_eq_some {i : DepositorId} (h : slotOfCredential s n = some i) :
    ∃ e, s.roster.get i = some e ∧ e.credential = n := by
  have hi := List.find?_some h
  cases he : s.roster.get i with
  | none => rw [he] at hi; cases hi
  | some e =>
    rw [he] at hi
    exact ⟨e, rfl, eq_of_beq hi⟩

theorem slotOfCredential_of_only {i : DepositorId} {e : Depositor} (he : s.roster.get i = some e)
    (hn : e.credential = n) (honly : ∀ j x, s.roster.get j = some x → x.credential = n → j = i) :
    slotOfCredential s n = some i := by
  cases hslot : slotOfCredential s n with
  | none =>
    have hnone := List.find?_eq_none.mp hslot i (List.mem_finRange i)
    rw [he] at hnone
    exact absurd (beq_iff_eq.mpr hn) hnone
  | some j =>
    obtain ⟨x, hx, hxn⟩ := slotOfCredential_eq_some hslot
    rw [honly j x hx hxn]

theorem slot_of_no_other (h : ∀ i e, i ≠ d → s.roster.get i = some e → e.credential ≠ n) :
    (slotOfCredential s n).any (· != d) = false := by
  cases hslot : slotOfCredential s n with
  | none => rfl
  | some i =>
    obtain ⟨e, he, hn⟩ := slotOfCredential_eq_some hslot
    rw [Option.any_some, bne_eq_false_iff_eq]
    by_contra hi
    exact h i e hi he hn

end

/-! ## REMOVE DEPOSITOR -/

theorem ChuteState.depositor_eq_some {st : ChuteState} :
    st.depositor = some d ↔ (∃ ms, st = .session d ms) ∨ ∃ ms p, st = .drum d ms p := by
  cases st <;> simp [ChuteState.depositor]

theorem sessionBound_eq_false
    (h : ∀ (c : ChuteId) (ms : Nat) (p : Bool),
      (s.chutes.get c).state ≠ .session d ms ∧ (s.chutes.get c).state ≠ .drum d ms p) : sessionBound s d = false := by
  rw [sessionBound, List.any_eq_false]
  intro k hk
  obtain ⟨c, rfl⟩ := Table.exists_get_of_mem hk
  rw [beq_iff_eq, ChuteState.depositor_eq_some]
  rintro (⟨ms, hms⟩ | ⟨ms, p, hms⟩)
  · exact (h c ms true).1 hms
  · exact (h c ms p).2 hms

theorem RecordState.isTerminal_iff {st : RecordState} :
    st.isTerminal = true ↔ st = .counted ∨ st = .dispatched ∨ st = .void := by
  cases st <;> simp [RecordState.isTerminal]

theorem depositorNamed_eq_false
    (hrecords : ∀ r ∈ s.register.records, r.depositor = d →
      r.state = .counted ∨ r.state = .dispatched ∨ r.state = .void)
    (hadvices : ∀ a ∈ s.advices.entries, a.depositor ≠ d) : depositorNamed s d = false := by
  rw [depositorNamed, Bool.or_eq_false_iff, List.any_eq_false, List.any_eq_false]
  refine ⟨fun r hr => ?_, fun a ha => ?_⟩
  · rw [Bool.and_eq_true, beq_iff_eq, Bool.not_eq_true']
    rintro ⟨hterminal, hd⟩
    rw [RecordState.isTerminal_iff.mpr (hrecords r hr hd)] at hterminal
    cases hterminal
  · rw [beq_iff_eq]
    exact hadvices a ha

theorem ownRemoveDepositor_of_free {e : Depositor} (hvalid : s.store.valid = true) (he : s.roster.get d = some e)
    (hbound : sessionBound s d = false) (hnamed : depositorNamed s d = false) :
    ownRemoveDepositor d.val s = .done .ok [] { s with roster := s.roster.set d none } := by
  simp only [ownRemoveDepositor, index_val, if_neg (not_valid hvalid), he, hbound, hnamed, Option.isNone_some,
    Bool.false_eq_true, if_false]

end Sys2Proof.Machine

open Sys2Proof Sys2Proof.Machine

/-- Settles O60: the slot of the index is written, with its credential in no other slot, or emptied. -/
theorem depositorCommandsChangeOneSlot : Obligations.DepositorCommandsChangeOneSlot := by
  unfold Obligations.DepositorCommandsChangeOneSlot
  refine fun tag d s hl hvalid => ⟨fun credential permissions allowance active coin clear hone hmost hperm hallow
    hallow' => ⟨fun hfree => ⟨fun hempty => ?_, fun e he => ?_⟩, fun ⟨i, e, hi, he, hn, honly⟩ => ?_⟩,
    fun ⟨e, he⟩ hbound hrecords hadvices => ?_⟩
  · exact takeSetDepositor (clear := clear) hl (ownSetDepositor_of_empty (s := received 1 s) hvalid
      (depositorArgs_inRange hone hmost hperm hallow hallow') (slot_of_no_other (s := received 1 s) hfree) hempty)
  · refine takeSetDepositor (clear := clear) hl ((ownSetDepositor_of_slot (s := received 1 s) hvalid
      (depositorArgs_inRange hone hmost hperm hallow hallow') (slot_of_no_other (s := received 1 s) hfree) he).trans ?_)
    rw [replaced_args]
    rfl
  · refine takeSetDepositor (clear := clear) (t := s) hl (ownSetDepositor_of_duplicate (s := received 1 s) hvalid
      (depositorArgs_inRange hone hmost hperm hallow hallow') ?_)
    rw [slotOfCredential_of_only (s := received 1 s) he hn honly, Option.any_some, bne_iff_ne]
    exact hi
  · exact congrArg _ (takePlain_done (c := .removeDepositor) hl rfl (fun hl => by cases hl) Command.noConfusion
      (ownRemoveDepositor_of_free (s := received 1 s) hvalid he (sessionBound_eq_false (s := received 1 s) hbound)
        (depositorNamed_eq_false (s := received 1 s) hrecords hadvices)))

end

section
-- One theorem after another: elaborated side by side, the whole text asks for more threads than the check has memory for.
set_option Elab.async false
/-! The commands of the advices and of one record (R11 to R17, R91, R92, R154). -/

namespace Sys2Proof.Machine

variable {s t : State} {l : LinkId} {tag n : Nat} {r : Record} {a : AdviceArgs}

/-! ## Loading advices -/

theorem enterAdvice_received {x : Advice} : enterAdvice x (received l s) = received l (enterAdvice x s) := by
  unfold enterAdvice
  rw [show lateRecord (received l s) x.tag = lateRecord s x.tag from rfl]
  cases lateRecord s x.tag <;> rfl

theorem enterAdvice_eq {x : Advice} :
    enterAdvice x s =
      { s with
        register := { s.register with records := (enterAdvice x s).register.records }
        advices := { s.advices with entries := (enterAdvice x s).advices.entries } } := by
  unfold enterAdvice
  split <;> rfl

theorem loadOne_received {p : Nat} :
    loadOne p a (received l s) = (received l (loadOne p a s).1, (loadOne p a s).2) := by
  have htag : adviceByTag (received l s) a.tag = adviceByTag s a.tag := rfl
  have hslot : emptySlot (received l s) = emptySlot s := rfl
  have hlate : lateRecord (received l s) a.tag = lateRecord s a.tag := rfl
  have hroster : (received l s).roster = s.roster := rfl
  unfold loadOne
  simp only [htag, hslot, hlate, hroster, enterAdvice_received]
  repeat' split
  all_goals rfl

theorem loadFrom_received {p : Nat} {as : List AdviceArgs} :
    loadFrom p as (received l s) = (received l (loadFrom p as s).1, (loadFrom p as s).2) := by
  induction as generalizing p s with
  | nil => rfl
  | cons a as ih => simp only [loadFrom, loadOne_received, ih]

theorem loadFrom_length {p : Nat} {as : List AdviceArgs} : (loadFrom p as s).2.length = as.length := by
  induction as generalizing p s with
  | nil => rfl
  | cons a as ih => simp only [loadFrom, List.length_cons, ih]

theorem loadOne_eq {p : Nat} :
    (loadOne p a s).1 =
      { s with
        register := { s.register with records := (loadOne p a s).1.register.records }
        advices := { s.advices with entries := (loadOne p a s).1.advices.entries } } := by
  unfold loadOne
  repeat' split
  · rfl
  · rfl
  · rfl
  · exact enterAdvice_eq
  · rfl

theorem loadFrom_eq {p : Nat} {as : List AdviceArgs} :
    (loadFrom p as s).1 =
      { s with
        register := { s.register with records := (loadFrom p as s).1.register.records }
        advices := { s.advices with entries := (loadFrom p as s).1.advices.entries } } := by
  induction as generalizing p s with
  | nil => rfl
  | cons a as ih =>
    simp only [loadFrom]
    rw [ih, loadOne_eq]

theorem takeLoadAdvice {as : List AdviceArgs} (h : ReadyLink s 1) (hvalid : s.store.valid = true)
    (hone : 1 ≤ as.length) (hmost : as.length ≤ 8) :
    exec (.loadAdvice 1 tag as) s = .next (doneAt 1 tag .ok (loadFrom 1 as s).2 (loadFrom 1 as s).1) := by
  have hform : (decide (1 ≤ as.length) && decide (as.length ≤ 8)) = true := by
    rw [Bool.and_eq_true, decide_eq_true_iff, decide_eq_true_iff]
    exact ⟨hone, hmost⟩
  refine congrArg _ (takeCommand_done (c := .loadAdvice) h rfl hform (fun hl => by cases hl) Command.noConfusion ?_)
  rw [ownLoadAdvice, loadFrom_received]
  exact if_neg (not_valid hvalid)

theorem takeLoadAdvice_one {x : ResultRecord} (h : ReadyLink s 1) (hvalid : s.store.valid = true)
    (ho : loadOne 1 a s = (t, x)) :
    exec (.loadAdvice 1 tag [a]) s = .next (doneAt 1 tag .ok [x] t) := by
  have hload : loadFrom 1 [a] s = (t, [x]) := by simp only [loadFrom, ho]
  rw [takeLoadAdvice (as := [a]) h hvalid (Nat.le_refl 1) (Nat.le_add_left 1 7), hload]

/-! ## One entry -/

section
variable {g date notes coins i : Nat} {d : DepositorId} {weight : Option Nat} {kind : Option BagKind}
  {handling : Handling} {e : Depositor}

/-- The fields of an advice as LOAD ADVICE carries them. -/
def adviceArgs (g : Nat) (d : DepositorId) (date notes coins : Nat) (weight : Option Nat) (kind : Option BagKind)
    (handling : Handling) : AdviceArgs :=
  ⟨g, d.val, date, notes, coins, weight, (kind.map fun k => k.code).getD 3, handling.code⟩

theorem adviceKind_code : adviceKind ((kind.map fun k => k.code).getD 3) = some kind := by
  cases kind with
  | none => rfl
  | some k => cases k <;> rfl

theorem atPlace_handlings : atPlace handlings handling.code = some handling := by cases handling <;> rfl

theorem adviceArgs_inRange (hg : 1 ≤ g ∧ g ≤ 999999999) (hdate : date ≤ 65535) (hnotes : notes ≤ 999999999)
    (hcoins : coins ≤ 999999999) (hweight : ∀ w ∈ weight, 1 ≤ w ∧ w ≤ 30000) :
    adviceInRange (adviceArgs g d date notes coins weight kind handling) = true := by
  have hweight' : (weight.all fun w => 1 ≤ w && w ≤ Config.overRange) = true := by
    cases weight with
    | none => rfl
    | some w =>
      rw [Option.all_some, Bool.and_eq_true, decide_eq_true_iff, decide_eq_true_iff]
      exact hweight w rfl
  have hdate' : date ≤ Config.lastDate := hdate
  have hnotes' : notes ≤ Config.maxAmount := hnotes
  have hcoins' : coins ≤ Config.maxAmount := hcoins
  simp only [adviceInRange, adviceArgs, isTag_iff.mpr hg, d.isLt, hdate', hnotes', hcoins', hweight', adviceKind_code,
    atPlace_handlings, Option.isSome_some, decide_true, Bool.and_true]

/-- The entry that LOAD ADVICE enters for these fields. -/
def adviceFor (g : Nat) (d : DepositorId) (date notes coins : Nat) (weight : Option Nat) (kind : BagKind)
    (handling : Handling) (i : Nat) : Advice :=
  { index := i, tag := g, depositor := d, date, notes, coins, weight, kind, handling, matched := none }

theorem loadOne_of_duplicate {p : Nat}
    (hrange : adviceInRange (adviceArgs g d date notes coins weight kind handling) = true)
    (htag : (adviceByTag s g).isSome = true) :
    loadOne p (adviceArgs g d date notes coins weight kind handling) s =
      (s, .adviceOutcome p g .duplicate none) := by
  unfold loadOne
  rw [hrange]
  simp only [adviceArgs, index_val, adviceKind_code, atPlace_handlings]
  exact if_pos htag

theorem loadOne_of_slot {p : Nat}
    (hrange : adviceInRange (adviceArgs g d date notes coins weight kind handling) = true)
    (htag : adviceByTag s g = none) (he : s.roster.get d = some e) (hslot : emptySlot s = some i) :
    loadOne p (adviceArgs g d date notes coins weight kind handling) s =
      (enterAdvice (adviceFor g d date notes coins weight (kind.getD e.kind) handling i) s,
       .adviceOutcome p g .ok (some (i, (lateRecord s g).map Record.number))) := by
  unfold loadOne
  rw [hrange]
  simp only [adviceArgs, index_val, adviceKind_code, atPlace_handlings, htag, he, hslot, Option.isSome_none,
    Bool.false_eq_true, if_false]
  rfl

theorem emptySlot_eq_some (hi : i < 384) (hfree : ∀ a ∈ s.advices.entries, a.index ≠ i)
    (hbelow : ∀ j < i, ∃ a ∈ s.advices.entries, a.index = j) : emptySlot s = some i := by
  refine List.find?_range_eq_some.mpr ⟨?_, List.mem_range.mpr hi, fun j hj => ?_⟩
  · rw [List.all_eq_true]
    exact fun a ha => bne_iff_ne.mpr (hfree a ha)
  · obtain ⟨a, ha, hindex⟩ := hbelow j hj
    rw [Bool.not_eq_true', List.all_eq_false]
    exact ⟨a, ha, by rw [hindex, bne_self_eq_false]; exact Bool.false_ne_true⟩

theorem adviceByTag_isSome (h : ∃ a ∈ s.advices.entries, a.tag = g) : (adviceByTag s g).isSome = true := by
  obtain ⟨a, ha, hg⟩ := h
  exact List.find?_isSome.mpr ⟨a, ha, beq_iff_eq.mpr hg⟩

theorem adviceByTag_eq_none (h : ∀ a ∈ s.advices.entries, a.tag ≠ g) : adviceByTag s g = none :=
  List.find?_eq_none.mpr fun a ha => by
    rw [beq_iff_eq]
    exact h a ha

theorem lateRecord_eq_none
    (h : ∀ r ∈ s.register.records, r.state = .held → r.tag = some g → r.reasons.getLsbD 1 = false) :
    lateRecord s g = none :=
  List.find?_eq_none.mpr fun r hr hlate => by
    simp only [Bool.and_eq_true, beq_iff_eq] at hlate
    obtain ⟨⟨hheld, htag⟩, hreason⟩ := hlate
    rw [hasReason, Reason.bit, h r hr hheld htag] at hreason
    cases hreason

theorem enterAdvice_of_none {x : Advice} (h : lateRecord s x.tag = none) :
    enterAdvice x s =
      { s with advices := { s.advices with entries := s.advices.entries ++ [{ x with matched := none }] } } := by
  rw [enterAdvice, h]

theorem enterAdvice_of_late {x : Advice} (h : lateRecord s x.tag = some r) :
    enterAdvice x s =
      modifyRecord r.number (·.lateMatched x)
        { s with
          advices :=
            { s.advices with entries := s.advices.entries ++ [{ x with matched := some r.number }] } } := by
  rw [enterAdvice, h]

/-! ## Cancelling -/

theorem takeCancelAdvice {code : CompletionCode} (h : ReadyLink s 1)
    (ho : ownCancelAdvice g (received 1 s) = .done code [] (received 1 t)) :
    exec (.cancelAdvice 1 tag g) s = .next (doneAt 1 tag code [] t) :=
  congrArg _ (takePlain_done (c := .cancelAdvice) h rfl (fun hl => by cases hl) Command.noConfusion ho)

theorem ownCancelAdvice_of_entry {x : Advice} (hvalid : s.store.valid = true) (hg : isTag g = true)
    (hx : adviceByTag s g = some x) :
    ownCancelAdvice g s =
      if x.matched.isSome then declined .wrongState s
      else .done .ok [] { s with advices := s.advices.removed x.index } := by
  simp only [ownCancelAdvice, hg, Bool.not_true, Bool.false_eq_true, if_false, if_neg (not_valid hvalid), hx]

end

/-! ## One record -/

section
variable {k : Fin 12} {x : Reason}

/-- Table 5: the hold reasons by their place. -/
theorem holdReason_of_place (k : Fin 12) :
    ∃ x, atPlace holdReasons (k.val + 1) = some x ∧ x.bit = k.val ∧ (x.fixed = true ↔ k = 0 ∨ k = 1 ∨ k = 3) := by
  revert k
  decide

theorem ownClearReason_of_held (hvalid : s.store.valid = true) (hx : atPlace holdReasons (k.val + 1) = some x)
    (hr : s.find n = some r) (hheld : r.state = .held) (hfixed : ¬ (x.fixed = true))
    (hreason : hasReason r.reasons x = true) :
    ownClearReason n (k.val + 1) s = .done .ok [] (modifyRecord n (·.without x) s) := by
  simp only [ownClearReason, hx, if_neg (not_valid hvalid), hr, hheld, ne_eq, not_true_eq_false, if_false, if_neg hfixed,
    hreason, Bool.not_true, Bool.false_eq_true]

theorem ownClearReason_of_wrongState (hvalid : s.store.valid = true)
    (hx : atPlace holdReasons (k.val + 1) = some x) (hr : s.find n = some r)
    (h : r.state ≠ .held ∨ x.fixed = true) : ownClearReason n (k.val + 1) s = declined .wrongState s := by
  simp only [ownClearReason, hx, if_neg (not_valid hvalid), hr]
  by_cases hheld : r.state ≠ .held
  · exact if_pos hheld
  · rw [if_neg hheld, if_pos (h.resolve_left hheld)]

theorem takeClearReason {code : CompletionCode} (h : ReadyLink s 1)
    (ho : ownClearReason n (k.val + 1) (received 1 s) = .done code [] (received 1 t)) :
    exec (.clearReason 1 tag n (k.val + 1)) s = .next (doneAt 1 tag code [] t) :=
  congrArg _ (takePlain_done (c := .clearReason) h rfl (fun hl => by cases hl) Command.noConfusion ho)

theorem without_eq (hx : x.bit = k.val) :
    r.without x =
      { r with
        reasons := r.reasons &&& ~~~(1#12 <<< k.val)
        state := if r.state = .held ∧ r.reasons &&& ~~~(1#12 <<< k.val) = 0 then .stored else r.state } := by
  rw [Record.without, removeReason, Reason.only, hx]

theorem ownVoid_of_record (hvalid : s.store.valid = true) (hr : s.find n = some r) :
    ownVoid n s =
      if r.state ≠ .stranded ∧ r.state ≠ .missing then declined .wrongState s
      else .done .ok [] (modifyRecord n (fun r => { r with state := .void }) s) := by
  simp only [ownVoid, if_neg (not_valid hvalid), hr]

theorem takeVoid {code : CompletionCode} (h : ReadyLink s 1)
    (ho : ownVoid n (received 1 s) = .done code [] (received 1 t)) :
    exec (.voidRecord 1 tag n) s = .next (doneAt 1 tag code [] t) :=
  congrArg _ (takePlain_done (c := .voidRecord) h rfl (fun hl => by cases hl) Command.noConfusion ho)

end

end Sys2Proof.Machine

open Sys2Proof Sys2Proof.Machine

/-- Settles O57: a reason cleared or a record made void is one record changed. -/
theorem recordCommandsChangeOneRecord : Obligations.RecordCommandsChangeOneRecord := by
  unfold Obligations.RecordCommandsChangeOneRecord
  refine fun tag n r s hl hvalid hr => ⟨fun k hzero hone hthree hheld hreason => ?_, fun k hk => ?_, fun hstate => ?_,
    fun hstranded hmissing => ?_⟩
  · obtain ⟨x, hx, hbit, hfixed⟩ := holdReason_of_place k
    have hfree : ¬ (x.fixed = true) := by
      rw [hfixed]
      rintro (h | h | h)
      · exact hzero h
      · exact hone h
      · exact hthree h
    have hhas : hasReason r.reasons x = true := by rw [hasReason, hbit, hreason]
    refine (takeClearReason hl (t := modifyRecord n (·.without x) s)
      (ownClearReason_of_held (s := received 1 s) hvalid hx hr hheld hfree hhas)).trans ?_
    simp only [without_eq hbit]
  · obtain ⟨x, hx, _, hfixed⟩ := holdReason_of_place k
    refine takeClearReason hl (t := s) (ownClearReason_of_wrongState (s := received 1 s) hvalid hx hr ?_)
    rw [hfixed]
    tauto
  · exact takeVoid hl ((ownVoid_of_record (s := received 1 s) hvalid hr).trans (if_neg (by tauto)))
  · exact takeVoid hl (t := s) ((ownVoid_of_record (s := received 1 s) hvalid hr).trans
      (if_pos ⟨hstranded, hmissing⟩))

/-- Settles O59: each entry is entered at the lowest free place, matched to the late record where there is one. -/
theorem adviceCommandsChangeTheTable : Obligations.AdviceCommandsChangeTheTable := by
  unfold Obligations.AdviceCommandsChangeTheTable
  refine fun tag s hl hvalid => ⟨fun es hone hmost =>
    ⟨_, _, takeLoadAdvice hl hvalid hone hmost, loadFrom_length, loadFrom_eq⟩,
    fun g d date notes coins weight kind handling hg hg' hdate hnotes hcoins hweight => ⟨fun hdup => ?_,
      fun e i he htag hi hfree hbelow => ⟨fun hnone => ?_, fun r hr => ?_⟩⟩,
    fun g a hg hg' ha => ⟨fun hopen => ?_, fun hmatched => ?_⟩⟩
  · exact takeLoadAdvice_one hl hvalid (loadOne_of_duplicate
      (adviceArgs_inRange ⟨hg, hg'⟩ hdate hnotes hcoins hweight) (adviceByTag_isSome hdup))
  · refine takeLoadAdvice_one hl hvalid ((loadOne_of_slot
      (adviceArgs_inRange ⟨hg, hg'⟩ hdate hnotes hcoins hweight) (adviceByTag_eq_none htag) he
      (emptySlot_eq_some hi hfree hbelow)).trans ?_)
    rw [lateRecord_eq_none hnone, enterAdvice_of_none (lateRecord_eq_none hnone)]
    rfl
  · refine takeLoadAdvice_one hl hvalid ((loadOne_of_slot
      (adviceArgs_inRange ⟨hg, hg'⟩ hdate hnotes hcoins hweight) (adviceByTag_eq_none htag) he
      (emptySlot_eq_some hi hfree hbelow)).trans ?_)
    have hlate : lateRecord s g = some r := hr
    rw [hlate, enterAdvice_of_late (r := r) hlate]
    rfl
  · refine takeCancelAdvice hl ((ownCancelAdvice_of_entry (s := received 1 s) hvalid (isTag_iff.mpr ⟨hg, hg'⟩) ha).trans
      (if_neg ?_))
    rw [hopen]
    exact Bool.false_ne_true
  · exact takeCancelAdvice hl (t := s) ((ownCancelAdvice_of_entry (s := received 1 s) hvalid
      (isTag_iff.mpr ⟨hg, hg'⟩) ha).trans (if_pos (Option.isSome_iff_ne_none.mpr hmatched)))

end

section
-- One theorem after another: elaborated side by side, the whole text asks for more threads than the check has memory for.
set_option Elab.async false
/-! The count result and the purge (R85 to R90, R15, R155). -/

namespace Sys2Proof.Machine

variable {s t : State} {tag n : Nat} {r : Record}

/-! ## The count of a bag -/

section
variable {notes coins : Nat} {tolerance : Nat} {difference : Option Int}

theorem isDiscrepant_iff {v : Int} : isDiscrepant tolerance v = true ↔ (tolerance : Int) < |v| := by
  rw [isDiscrepant, decide_eq_true_iff, Int.abs_eq_natAbs, Int.ofNat_lt]

theorem verdictOf_discrepant :
    verdictOf tolerance difference = .discrepant ↔ ∃ v, difference = some v ∧ (tolerance : Int) < |v| := by
  cases difference with
  | none => exact iff_of_false Verdict.noConfusion fun ⟨v, hv, _⟩ => by cases hv
  | some v =>
    rw [verdictOf]
    split
    next h => exact iff_of_true rfl ⟨v, rfl, isDiscrepant_iff.mp h⟩
    next h =>
      refine iff_of_false Verdict.noConfusion ?_
      rintro ⟨w, hw, hlt⟩
      cases hw
      exact h (isDiscrepant_iff.mpr hlt)

theorem verdictOf_unadvised : verdictOf tolerance difference = .unadvised ↔ difference = none := by
  cases difference with
  | none => exact iff_of_true rfl rfl
  | some v =>
    rw [verdictOf]
    refine iff_of_false ?_ (Option.some_ne_none v)
    split <;> exact Verdict.noConfusion

/-- R86: the record as the count leaves it. -/
def Record.counted (r : Record) (notes coins : Nat) (difference : Option Int) : Record :=
  { r with state := .counted, count := some { notes, coins, difference } }

/-- R86, R88: the advice's difference, where the record has an advice. -/
def countDifference (r : Record) (notes coins : Nat) (s : State) : Option Int :=
  (adviceOf s r).map (differenceFrom notes coins)

/-- R88: whether the count is discrepant. -/
def countBad (r : Record) (notes coins : Nat) (s : State) : Bool :=
  verdictOf s.store.params.countTolerance (countDifference r notes coins s) == .discrepant

theorem applyCount_eq :
    applyCount r notes coins s =
      raiseTimes .discrepancy (if countBad r notes coins s then 1 else 0)
        { s with
          register :=
            { s.register with
              records := modifyIn r.number (Record.counted · notes coins (countDifference r notes coins s))
                s.register.records
              current := s.register.current.countTaken (countBad r notes coins s) }
          roster := s.roster.set r.depositor
            ((s.roster.get r.depositor).map
              (Depositor.credited (notes + coins) ((adviceOf s r).map fun a => a.notes + a.coins)
                (countBad r notes coins s))) } := rfl

theorem countBad_iff :
    countBad r notes coins s = true ↔
      ∃ v, countDifference r notes coins s = some v ∧ (s.store.params.countTolerance : Int) < |v| := by
  rw [countBad, beq_iff_eq, verdictOf_discrepant]

theorem applyCount_current :
    (applyCount r notes coins s).register.current = s.register.current.countTaken (countBad r notes coins s) := by
  rw [applyCount_eq, raiseTimes_register]

theorem applyCount_records :
    (applyCount r notes coins s).register.records =
      modifyIn r.number (Record.counted · notes coins (countDifference r notes coins s)) s.register.records := by
  rw [applyCount_eq, raiseTimes_register]

theorem applyCount_links :
    (applyCount r notes coins s).links = if countBad r notes coins s then (raise .discrepancy s).links else s.links := by
  rw [applyCount_eq]
  cases countBad r notes coins s <;> rfl

theorem applyCount_roster {e : Depositor} (he : s.roster.get r.depositor = some e) :
    (applyCount r notes coins s).roster =
      s.roster.set r.depositor (some (e.credited (notes + coins) ((adviceOf s r).map fun a => a.notes + a.coins)
        (countBad r notes coins s))) := by
  rw [applyCount_eq, raiseTimes_roster, he]
  rfl

theorem applyCount_others :
    applyCount r notes coins s =
      { s with
        register :=
          { s.register with
            records := (applyCount r notes coins s).register.records
            current := (applyCount r notes coins s).register.current }
        roster := (applyCount r notes coins s).roster
        links := (applyCount r notes coins s).links } := by
  rw [applyCount_current, applyCount_records, applyCount_eq, raiseTimes_eq]

theorem mem_modifyIn_of_ne {f : Record → Record} {x : Record} {records : List Record} (hx : x ∈ records)
    (h : x.number ≠ n) : x ∈ modifyIn n f records := List.mem_map.mpr ⟨x, hx, if_neg h⟩

/-- R88: the depositor of the bag, with what it brought and what it declared. -/
theorem Depositor.credited_eq {e : Depositor} {declared : Option Nat} {b : Bool} {counted : Nat} :
    e.credited counted declared b =
      { e with
        counted := min 4294967295 (e.counted + counted)
        declared := (e.credited counted declared b).declared
        saturation := (e.credited counted declared b).saturation
        discrepancies := (e.credited counted declared b).discrepancies } := rfl

theorem applyCount_recordAt (h : RecordAt s n r) :
    RecordAt (applyCount r notes coins s) n (r.counted notes coins (countDifference r notes coins s)) := by
  have hn : r.number = n := h.number
  rw [applyCount_eq, RecordAt, raiseTimes_register, hn]
  exact h.modify (f := (Record.counted · notes coins (countDifference r notes coins s))) fun _ => rfl

theorem applyCount_received {l : LinkId} :
    applyCount r notes coins (received l s) = received l (applyCount r notes coins s) := by
  rw [applyCount_eq, applyCount_eq, ← raiseTimes_received]
  rfl

theorem countRecord_of_record (h : RecordAt s n r) :
    countRecord r notes coins s =
      [.counted (r.counted notes coins (countDifference r notes coins s))
        (verdictOf s.store.params.countTolerance (countDifference r notes coins s))
        s.store.params.countTolerance] := by
  have hfind : (applyCount r notes coins s).find r.number = some _ := h.number ▸ applyCount_recordAt h
  rw [countRecord, hfind]
  rfl

theorem ownCountResult_of_record (hn : n ≠ 0) (hnotes : notes ≤ 999999999) (hcoins : coins ≤ 999999999)
    (hvalid : s.store.valid = true) (hr : s.find n = some r) :
    ownCountResult n notes coins s =
      if r.state = .counted then declined .alreadyCounted s
      else if r.state ≠ .outTeller then declined .wrongState s
      else .done .ok (countRecord r notes coins s) (applyCount r notes coins s) := by
  have hrange : ¬ (n = 0 ∨ Config.maxAmount < notes ∨ Config.maxAmount < coins) := by
    rintro (h | h | h)
    · exact hn h
    · exact Nat.not_lt.mpr hnotes h
    · exact Nat.not_lt.mpr hcoins h
  simp only [ownCountResult, if_neg hrange, if_neg (not_valid hvalid), hr]

theorem ownCountResult_of_none (hn : n ≠ 0) (hnotes : notes ≤ 999999999) (hcoins : coins ≤ 999999999)
    (hvalid : s.store.valid = true) (hr : s.find n = none) :
    ownCountResult n notes coins s = declined .notFound s := by
  have hrange : ¬ (n = 0 ∨ Config.maxAmount < notes ∨ Config.maxAmount < coins) := by
    rintro (h | h | h)
    · exact hn h
    · exact Nat.not_lt.mpr hnotes h
    · exact Nat.not_lt.mpr hcoins h
  simp only [ownCountResult, if_neg hrange, if_neg (not_valid hvalid), hr]

theorem takeCountResult {code : CompletionCode} {results : List ResultRecord} (h : ReadyLink s 2)
    (ho : ownCountResult n notes coins (received 2 s) = .done code results (received 2 t)) :
    exec (.countResult 2 tag n notes coins) s = .next (doneAt 2 tag code results t) :=
  congrArg _ (takePlain_done (c := .countResult) h rfl (fun hl => by cases hl) Command.noConfusion ho)

theorem takeCountResult_outTeller (hl : ReadyLink s 2) (hvalid : s.store.valid = true) (hn : n ≠ 0)
    (hnotes : notes ≤ 999999999) (hcoins : coins ≤ 999999999) (hr : RecordAt s n r) (hstate : r.state = .outTeller) :
    exec (.countResult 2 tag n notes coins) s =
      .next (doneAt 2 tag .ok
        [.counted (r.counted notes coins (countDifference r notes coins s))
          (verdictOf s.store.params.countTolerance (countDifference r notes coins s))
          s.store.params.countTolerance]
        (applyCount r notes coins s)) := by
  refine takeCountResult hl
    ((ownCountResult_of_record (s := received 2 s) hn hnotes hcoins hvalid hr).trans ?_)
  rw [hstate, if_neg RecordState.noConfusion, if_neg (by decide), applyCount_received,
    countRecord_of_record (s := received 2 s) hr]
  rfl

end

/-! ## The purge walk -/

section
variable {date : Nat} {w : Walk}

theorem removeRecord_eq :
    removeRecord s r =
      { s with
        register := { s.register with records := s.register.records.filter fun x => !(r.number == x.number) }
        advices :=
          { s.advices with entries := s.advices.entries.filter fun a => !(r.advice == some a.index) } } := by
  have hrecords : (fun x : Record => x.number != r.number) = fun x => !(r.number == x.number) :=
    funext fun x => by rw [Bool.beq_comm]; rfl
  rw [removeRecord, hrecords]
  cases hadvice : r.advice with
  | none =>
    have hnone : ∀ a : Advice, (!((none : Option Nat) == some a.index)) = true := fun _ => rfl
    simp only [hnone, List.filter_true]
  | some i =>
    have hsome : (fun a : Advice => a.index != i) = fun a => !(some i == some a.index) :=
      funext fun a => by rw [Option.some_beq_some, Bool.beq_comm]; rfl
    dsimp only
    rw [AdviceTable.removed, hsome]

/-- R15: the records and the entries left by a walk over some of the records. -/
def walked (date : Nat) (rs : List Record) (s : State) : State :=
  { s with
    register :=
      { s.register with
        records := s.register.records.filter fun x => !rs.any fun r => r.purged date && r.number == x.number }
    advices :=
      { s.advices with
        entries := s.advices.entries.filter fun a => !rs.any fun r => r.purged date && r.advice == some a.index } }

theorem walked_nil : walked date [] s = s := by
  simp only [walked, List.any_nil, Bool.not_false, List.filter_true]

theorem walked_cons {rs : List Record} : walked date (r :: rs) s = walked date rs (visitRecord date s r) := by
  unfold visitRecord
  split
  next hpurged =>
    simp only [removeRecord_eq, walked, List.any_cons, List.filter_filter, hpurged, Bool.true_and, Bool.not_or,
      Bool.and_comm]
  next hkept =>
    rw [Bool.not_eq_true] at hkept
    simp only [walked, List.any_cons, hkept, Bool.false_and, Bool.false_or]

theorem foldl_visitRecord {rs : List Record} : rs.foldl (visitRecord date) s = walked date rs s := by
  induction rs generalizing s with
  | nil => exact walked_nil.symm
  | cons r rs ih => rw [List.foldl_cons, ih, walked_cons]

/-- R15: whether the walk still to come removes a record. -/
def Walk.removes (w : Walk) (r : Record) : Bool :=
  decide (w.visited < r.number) && decide (r.arrivalDate ≤ w.date) &&
    (r.state == .counted || r.state == .dispatched || r.state == .void)

theorem Walk.removes_eq : w.removes r = (decide (w.visited < r.number) && r.purged w.date) := by
  have hterminal : r.state.isTerminal = (r.state == .counted || r.state == .dispatched || r.state == .void) := by
    cases r.state <;> rfl
  rw [Walk.removes, Record.purged, hterminal, Bool.and_assoc, Bool.and_comm (decide (r.arrivalDate ≤ w.date))]

/-- R1: with distinct numbers, a record is the one of its number. -/
theorem any_number_eq {p : Record → Bool} {records : List Record} (hnodup : (records.map Record.number).Nodup)
    {x : Record} (hx : x ∈ records) : (records.any fun r => p r && r.number == x.number) = p x := by
  rw [Bool.eq_iff_iff, List.any_eq_true]
  constructor
  · rintro ⟨r, hr, h⟩
    rw [Bool.and_eq_true, beq_iff_eq] at h
    exact List.inj_on_of_nodup_map hnodup hr hx h.2 ▸ h.1
  · exact fun h => ⟨x, hx, by rw [h, beq_self_eq_true]; rfl⟩

theorem any_unvisited {p : Record → Bool} :
    ((unvisited w s).any fun r => r.purged w.date && p r) = s.register.records.any fun r => w.removes r && p r := by
  rw [unvisited, List.any_filter]
  simp only [Walk.removes_eq, Bool.and_assoc]

theorem walked_unvisited (hnodup : (s.register.records.map Record.number).Nodup) :
    walked w.date (unvisited w s) s =
      { s with
        register := { s.register with records := s.register.records.filter fun r => !w.removes r }
        advices :=
          { s.advices with
            entries := s.advices.entries.filter fun a =>
              !s.register.records.any fun r => w.removes r && r.advice == some a.index } } := by
  have hrecords : (s.register.records.filter fun x =>
      !s.register.records.any fun r => w.removes r && r.number == x.number) =
      s.register.records.filter fun r => !w.removes r :=
    List.filter_congr fun x hx => by rw [any_number_eq hnodup hx]
  simp only [walked, any_unvisited, hrecords]

theorem endWalk_of_walk (h : s.register.walk = some w) :
    endWalk s =
      endLong 1 .ok []
        { walked w.date (unvisited w s) s with
          register := { (walked w.date (unvisited w s) s).register with walk := none } } := by
  rw [← foldl_visitRecord]
  simp only [endWalk, h]

theorem endWalk_of_none (h : s.register.walk = none) : endWalk s = s := by
  simp only [endWalk, h]

theorem exec_purgeWalkEnd : exec .purgeWalkEnd s = .next (endWalk s) := rfl

theorem takePurge (h : ReadyLink s 1) (hlong : (s.links.get 1).long = none) (hvalid : s.store.valid = true) :
    exec (.purge 1 tag date) s =
      .next (executingAt 1 tag .purge { s with register := { s.register with walk := some ⟨date, 0⟩ } }) :=
  congrArg _ (takePlain_started (c := .purge) h rfl hlong (if_neg (not_valid hvalid)))

end

end Sys2Proof.Machine

open Sys2Proof Sys2Proof.Machine

/-- Settles O55: the record is counted, its depositor credited and the verdict given, or nothing changes. -/
theorem countResultClosesTheRecord : Obligations.CountResultClosesTheRecord := by
  unfold Obligations.CountResultClosesTheRecord
  refine fun tag n notes coins s hl hvalid hn hnotes hcoins => ⟨fun r e a hr hstate he ha => ?_, fun hnone => ?_,
    fun r hr => ⟨fun hcounted => ?_, fun hcounted hout => ?_⟩⟩
  · have hadvice : adviceOf s r = a := by
      rw [ha, adviceOf]
      cases r.advice <;> rfl
    have hdifference : countDifference r notes coins s =
        a.map fun x => ((notes : Int) + coins) - ((x.notes : Int) + x.coins) := by
      rw [countDifference, hadvice]
      rfl
    have htake := takeCountResult_outTeller (tag := tag) hl hvalid hn hnotes hcoins hr hstate
    have hrecord := applyCount_recordAt (notes := notes) (coins := coins) hr
    have hbad := countBad_iff (r := r) (notes := notes) (coins := coins) (s := s)
    rw [hdifference] at htake hrecord hbad
    refine ⟨_, _, htake, hrecord, fun x hx hne => ?_, ?_, verdictOf_discrepant, fun hdisc => ?_, fun hdisc => ?_,
      ⟨_, applyCount_roster he, Depositor.credited_eq, fun hnone => ?_, fun x hx => ?_, fun hdisc => ?_,
        fun hdisc => ?_⟩, applyCount_others⟩
    · rw [applyCount_records]
      exact mem_modifyIn_of_ne hx (hr.number ▸ hne)
    · rw [verdictOf_unadvised, Option.map_eq_none_iff]
    · rw [applyCount_current, applyCount_links, hbad.mpr hdisc]
      exact ⟨rfl, rfl⟩
    · rw [applyCount_current, applyCount_links, Bool.eq_false_iff.mpr fun h => hdisc (hbad.mp h)]
      exact ⟨rfl, rfl⟩
    · rw [hadvice, hnone]
      rfl
    · rw [hadvice, hx]
      rfl
    · rw [hbad.mpr hdisc]
      rfl
    · rw [Bool.eq_false_iff.mpr fun h => hdisc (hbad.mp h)]
      rfl
  · exact takeCountResult hl (t := s) (ownCountResult_of_none (s := received 2 s) hn hnotes hcoins hvalid
      (find_eq_none (s := received 2 s) hnone))
  · exact takeCountResult hl (t := s)
      ((ownCountResult_of_record (s := received 2 s) hn hnotes hcoins hvalid hr).trans (if_pos hcounted))
  · exact takeCountResult hl (t := s) ((ownCountResult_of_record (s := received 2 s) hn hnotes hcoins hvalid hr).trans
      ((if_neg hcounted).trans (if_pos hout)))

/-- Settles O58: the walk leaves the records it does not remove, and the link its answer. -/
theorem purgeRemovesTerminalRecords : Obligations.PurgeRemovesTerminalRecords := by
  unfold Obligations.PurgeRemovesTerminalRecords
  refine ⟨fun tag d s hl hlong hvalid => takePurge hl hlong hvalid, fun s hnone => ?_,
    fun w tag delivery s hnodup hwalk hlong => ⟨_, exec_purgeWalkEnd, ?_⟩⟩
  · rw [exec_purgeWalkEnd, endWalk_of_none hnone]
  · rw [endWalk_of_walk hwalk, walked_unvisited hnodup]
    refine ⟨rfl, rfl, ?_, ?_, rfl⟩
    · rintro rfl
      exact congrArg (s.links.set 1) (Link.longEnded_deliver hlong)
    · rintro rfl
      exact congrArg (s.links.set 1) (Link.longEnded_discard hlong)

end

section
-- One theorem after another: elaborated side by side, the whole text asks for more threads than the check has memory for.
set_option Elab.async false
/-! The carrier's manifest (R160 to R167). -/

namespace Sys2Proof.Machine

variable {s t : State} {tag n : Nat} {r : Record} {m : Manifest}

/-- R160: a command of the manifest ends with the manifest as it stands. -/
theorem takeManifest {c : Command} {owner : State → Answer} {code : CompletionCode} {more : List ResultRecord}
    (h : ReadyLink s 3) (hr : c.allowed 3 = true) (hlong : c.isLong = false) (hc : c ≠ .setForcedError)
    (ho : owner (received 3 s) = withManifest code more (received 3 t)) :
    takePlain 3 tag c owner s = doneAt 3 tag code (manifestSummary t :: more) t :=
  takePlain_done h hr (fun hl => by rw [hlong] at hl; cases hl) hc ho

/-! ## The entries -/

theorem manifestEntries_of_current (h : s.manifest.current = some m) : manifestEntries s = m.entries := by
  rw [manifestEntries, h]
  rfl

/-- The records of the entries that meet a test, shown one way. -/
theorem entryRecords_shown {α : Type} (h : s.manifest.current = some m) {test : Record → Bool} {shown : Record → α} :
    ((entryRecords s).filter test).map shown =
      m.entries.filterMap fun n => ((s.find n).filter test).map shown := by
  rw [entryRecords, manifestEntries_of_current h, List.filter_filterMap, List.map_filterMap]

theorem mem_entryRecords (h : s.manifest.current = some m) :
    r ∈ entryRecords s ↔ ∃ n ∈ m.entries, RecordAt s n r := by
  rw [entryRecords, manifestEntries_of_current h, List.mem_filterMap]
  rfl

theorem carried_isEmpty (h : s.manifest.current = some m) :
    (carried s).isEmpty = true ↔ ∀ n ∈ m.entries, ∀ r, RecordAt s n r → r.state ≠ .outCarrier := by
  rw [List.isEmpty_iff, carried, List.filter_eq_nil_iff]
  simp only [mem_entryRecords h, beq_iff_eq]
  exact ⟨fun hall n hn r hr => hall r ⟨n, hn, hr⟩, fun hall r ⟨n, hn, hr⟩ => hall n hn r hr⟩

theorem notCarried_isEmpty (h : s.manifest.current = some m) :
    (notCarried s).isEmpty = true ↔ ∀ n ∈ m.entries, ∀ r, RecordAt s n r → r.state = .outCarrier := by
  rw [List.isEmpty_iff, notCarried, List.filter_eq_nil_iff]
  simp only [mem_entryRecords h, bne_iff_ne, ne_eq, not_not]
  exact ⟨fun hall n hn r hr => hall r ⟨n, hn, hr⟩, fun hall r ⟨n, hn, hr⟩ => hall n hn r hr⟩

/-! ## The owners' answers -/

section
variable (hvalid : s.store.valid = true)
include hvalid

theorem ownManifestOpen_of_none (h : s.manifest.current = none) :
    ownManifestOpen s = withManifest .ok [] (startManifest s) := by
  rw [ownManifestOpen, if_neg (not_valid hvalid), h]
  rfl

theorem ownManifestAdd_of_record (hn : n ≠ 0) (hm : s.manifest.current = some m) (hr : s.find n = some r)
    (hnew : n ∉ m.entries) (hstored : r.state = .stored) (hthrough : r.handling = some .through)
    (hroom : m.entries.length < 24) :
    ownManifestAdd n s = withManifest .ok [] (setManifest (some { m with entries := m.entries ++ [n] }) s) := by
  have hnew' : ¬ (m.entries.contains n = true) := by rwa [List.contains_eq_mem, decide_eq_true_iff]
  have hfit : ¬ (r.state ≠ .stored ∨ r.handling ≠ some .through) := not_or.mpr ⟨not_not.mpr hstored, not_not.mpr hthrough⟩
  have hroom' : ¬ (Config.manifestSize ≤ m.entries.length) := Nat.not_le.mpr hroom
  simp only [ownManifestAdd, if_neg hn, if_neg (not_valid hvalid), hm, hr, if_neg hnew', if_neg hfit, if_neg hroom']

theorem ownManifestDrop_of_record (hn : n ≠ 0) (hm : s.manifest.current = some m) (hr : s.find n = some r)
    (hmem : n ∈ m.entries) (hout : r.state ≠ .outCarrier) : ownManifestDrop n s = withManifest .ok [] (dropEntry n s) := by
  have hmem' : ¬ ((!m.entries.contains n) = true) := by
    rw [List.contains_eq_mem, decide_eq_true hmem]
    exact Bool.false_ne_true
  have hout' : ¬ ((some r).any (fun r => r.state == .outCarrier) = true) := by
    rw [Option.any_some, beq_iff_eq]
    exact hout
  simp only [ownManifestDrop, if_neg hn, if_neg (not_valid hvalid), hm, hr, if_neg hmem', if_neg hout']

theorem ownManifestAbandon_of_current (hm : s.manifest.current = some m) :
    ownManifestAbandon s =
      if (carried s).isEmpty then withManifest .ok [] (setManifest none s)
      else withManifest .wrongState ((carried s).map fun r => .manifestEntry (entryOf r)) s := by
  rw [ownManifestAbandon, if_neg (not_valid hvalid), hm]
  rfl

theorem ownManifestClose_of_current (hm : s.manifest.current = some m) :
    ownManifestClose s =
      if (notCarried s).isEmpty then
        withManifest .ok (copiesOf (closeManifest m s) m.entries) (closeManifest m s)
      else withManifest .incomplete ((notCarried s).map fun r => .manifestEntry (entryOf r)) s := by
  simp only [ownManifestClose, if_neg (not_valid hvalid), hm]

end

theorem dropEntry_of_current (hm : s.manifest.current = some m) :
    dropEntry n s =
      { s with
        manifest := { s.manifest with current := some { m with entries := m.entries.filter (· != n) } } } := by
  simp only [dropEntry, hm]

theorem startManifest_eq :
    startManifest s =
      { s with
        manifest :=
          { counter := if s.manifest.counter < 9999 then s.manifest.counter + 1 else 1
            current := some
              { number := s.manifest.counter
                openedAt := if s.clock.validity = .valid then some (s.clock.date, s.clock.seconds) else none
                entries := [] } } } := by
  have hopened : openingTime s = if s.clock.validity = .valid then some (s.clock.date, s.clock.seconds) else none :=
    if_congr clock_isValid_iff rfl rfl
  rw [startManifest, hopened]
  rfl

/-! ## The dispatch -/

/-- R166: a bag dispatched under a manifest. -/
def Record.dispatched (number : Nat) (r : Record) : Record :=
  { r with state := .dispatched, manifest := some number }

theorem foldl_dispatch {number : Nat} {ns : List Nat} :
    ns.foldl (dispatch number) s =
      { s with
        register :=
          { s.register with
            records := s.register.records.map fun r => if r.number ∈ ns then r.dispatched number else r
            current :=
              { s.register.current with
                dispatched := ns.foldl (fun k _ => upTo65535 k) s.register.current.dispatched } } } := by
  induction ns generalizing s with
  | nil => simp only [List.foldl_nil, List.not_mem_nil, if_false, List.map_id']
  | cons n ns ih =>
    have hrecords : (s.register.records.map fun r => if r.number = n then r.dispatched number else r).map
        (fun r => if r.number ∈ ns then r.dispatched number else r) =
        s.register.records.map fun r => if r.number ∈ n :: ns then r.dispatched number else r := by
      rw [List.map_map]
      refine List.map_congr_left fun r _ => ?_
      rw [Function.comp]
      by_cases hn : r.number = n
      · rw [if_pos hn, if_pos (List.mem_cons.mpr (.inl hn))]
        exact ite_self _
      · rw [if_neg hn]
        exact if_congr (by rw [List.mem_cons, or_iff_right hn]) rfl rfl
    rw [List.foldl_cons, ih, ← hrecords]
    rfl

theorem closeManifest_eq :
    closeManifest m s =
      { s with
        register :=
          { s.register with
            records := s.register.records.map fun r => if r.number ∈ m.entries then r.dispatched m.number else r
            current :=
              { s.register.current with
                dispatched := m.entries.foldl (fun k _ => upTo65535 k) s.register.current.dispatched } }
        manifest := { s.manifest with current := none } } := by
  rw [closeManifest, foldl_dispatch]
  rfl

theorem closeManifest_find (hn : n ∈ m.entries) :
    (closeManifest m s).find n = (s.find n).map (Record.dispatched m.number) := by
  rw [closeManifest_eq]
  change (s.register.records.map fun r => if r.number ∈ m.entries then r.dispatched m.number else r).find?
    (fun r => r.number == n) = _
  rw [List.find?_map]
  have hnumber : (fun r : Record => r.number == n) ∘
      (fun r => if r.number ∈ m.entries then r.dispatched m.number else r) = fun r => r.number == n := by
    funext r
    rw [Function.comp]
    split <;> rfl
  rw [hnumber, State.find]
  cases hr : s.register.records.find? fun r => r.number == n with
  | none => rfl
  | some r =>
    have hrn : r.number = n := RecordAt.number (s := s) hr
    rw [Option.map_some, Option.map_some, if_pos (hrn ▸ hn)]

theorem closeManifest_copies :
    copiesOf (closeManifest m s) m.entries =
      m.entries.filterMap fun n =>
        ((s.find n).filter fun _ => true).map fun r => .custody (r.dispatched m.number) := by
  rw [copiesOf, List.map_filterMap]
  refine List.filterMap_congr fun n hn => ?_
  rw [closeManifest_find hn, Option.map_map]
  cases s.find n <;> rfl

theorem closeManifest_received {l : LinkId} : closeManifest m (received l s) = received l (closeManifest m s) := by
  rw [closeManifest_eq, closeManifest_eq]
  rfl

end Sys2Proof.Machine

open Sys2Proof Sys2Proof.Machine

/-- Settles O56: the manifest is opened, filled, emptied, closed and abandoned by its own rows alone. -/
theorem manifestCommandsRunTheManifest : Obligations.ManifestCommandsRunTheManifest := by
  unfold Obligations.ManifestCommandsRunTheManifest
  refine ⟨fun tag s hl hvalid => ⟨fun hnone => ?_, fun m hm => ⟨fun n r hn hr hnew hstored hthrough hroom => ?_,
    fun n r hn hr hmem hout => ?_, fun hfree => ?_⟩⟩,
    fun tag m s hl hvalid hm => ⟨fun hall => ⟨closeManifest m s, ?_, ?_⟩, fun hsome => ?_, fun hsome => ?_⟩⟩
  · have hown := ownManifestOpen_of_none (s := received 3 s) hvalid hnone
    rw [startManifest_eq] at hown
    exact congrArg _ (takeManifest (c := .manifestOpen) hl rfl rfl Command.noConfusion hown)
  · exact congrArg _ (takeManifest (c := .manifestAdd) hl rfl rfl Command.noConfusion
      (ownManifestAdd_of_record (s := received 3 s) hvalid hn hm hr hnew hstored hthrough hroom))
  · have hown := ownManifestDrop_of_record (s := received 3 s) hvalid hn hm hr hmem hout
    rw [dropEntry_of_current (s := received 3 s) hm] at hown
    exact congrArg _ (takeManifest (c := .manifestDrop) hl rfl rfl Command.noConfusion hown)
  · exact congrArg _ (takeManifest (c := .manifestAbandon) hl rfl rfl Command.noConfusion
      ((ownManifestAbandon_of_current (s := received 3 s) hvalid hm).trans
        (if_pos ((carried_isEmpty (s := received 3 s) hm).mpr hfree))))
  · have hempty : (notCarried s).isEmpty = true := (notCarried_isEmpty hm).mpr fun n hn r hr => by
      obtain ⟨r', hr', hout⟩ := hall n hn
      cases hr.symm.trans hr'
      exact hout
    have hown := (ownManifestClose_of_current (s := received 3 s) hvalid hm).trans (if_pos hempty)
    rw [closeManifest_received] at hown
    refine congrArg _ ((takeManifest (c := .manifestClose) hl rfl rfl Command.noConfusion hown).trans ?_)
    exact congrArg (fun rs => doneAt 3 tag .ok (manifestSummary (closeManifest m s) :: rs) (closeManifest m s))
      closeManifest_copies
  · rw [closeManifest_eq]
    exact ⟨rfl, rfl, rfl, rfl⟩
  · have hempty : ¬ ((notCarried s).isEmpty = true) := by
      rw [notCarried_isEmpty hm]
      obtain ⟨n, hn, r, hr, hout⟩ := hsome
      exact fun hall => hout (hall n hn r hr)
    refine congrArg _ ((takeManifest (c := .manifestClose) (t := s) hl rfl rfl Command.noConfusion
      ((ownManifestClose_of_current (s := received 3 s) hvalid hm).trans (if_neg hempty))).trans ?_)
    exact congrArg (fun rs => doneAt 3 tag .incomplete (manifestSummary s :: rs) s) (entryRecords_shown hm)
  · have hempty : ¬ ((carried s).isEmpty = true) := by
      rw [carried_isEmpty hm]
      obtain ⟨n, hn, r, hr, hout⟩ := hsome
      exact fun hall => hall n hn r hr hout
    refine congrArg _ ((takeManifest (c := .manifestAbandon) (t := s) hl rfl rfl Command.noConfusion
      ((ownManifestAbandon_of_current (s := received 3 s) hvalid hm).trans (if_neg hempty))).trans ?_)
    exact congrArg (fun rs => doneAt 3 tag .wrongState (manifestSummary s :: rs) s) (entryRecords_shown hm)

end

section
-- One theorem after another: elaborated side by side, the whole text asks for more threads than the check has memory for.
set_option Elab.async false
/-! The commands under a store that is not valid (R168). -/

namespace Sys2Proof.Machine

variable {s : State} {l : LinkId} {tag n v lo hi : Nat} {c : Command} {owner : State → Answer}
  {results : List ResultRecord}

theorem invalid (h : s.store.valid = false) : (!s.store.valid) = true := by
  rw [h]
  rfl

/-- R168: a command that its operands let through and the store does not. -/
theorem takeInvalid (h : ReadyLink s l) (hr : c.allowed l = true)
    (hlong : c.isLong = true → (s.links.get l).long = none) (hc : c ≠ .setForcedError) (ho : owner (received l s) = .done .storeInvalid results (received l s)) :
    takePlain l tag c owner s = doneAt l tag .storeInvalid results s :=
  takePlain_done h hr hlong hc ho

section
variable (hs : s.store.valid = false)
include hs

/-! ## The commands that read -/

theorem ownReadRecord_invalid (hn : n ≠ 0) : ownReadRecord n s = declined .storeInvalid s :=
  (if_neg hn).trans (if_pos (invalid hs))

theorem ownListRecords_invalid {f : RecordFilter} (hrange : filterInRange f = true) :
    ownListRecords f s = declined .storeInvalid s := by
  rw [ownListRecords, hrange, if_neg (by decide), if_pos (invalid hs)]

theorem ownReadAdvice_tag_invalid (hg : isTag v = true) : ownReadAdvice true v s = declined .storeInvalid s := by
  rw [ownReadAdvice, if_pos rfl, hg, if_neg (by decide), if_pos (invalid hs)]

theorem ownReadAdvice_selector_invalid (hv : 1 ≤ v ∧ v ≤ 3) : ownReadAdvice false v s = declined .storeInvalid s := by
  rw [ownReadAdvice, if_neg Bool.false_ne_true, if_neg (by omega), if_pos (invalid hs)]

theorem ownReadDepositor_invalid {i : DepositorId} : ownReadDepositor (some i.val) s = declined .storeInvalid s := by
  simp only [ownReadDepositor, index_val, if_pos (invalid hs)]

/-! ## The clock, the windows and the parameters -/

theorem ownSetClock_invalid {d : Nat} (hv : v ≤ 86399) (hd : d ≤ 65535) :
    ownSetClock (some v) (some d) s = withClock .storeInvalid s := by
  have hrange : ¬ (Config.lastSecond < v ∨ Config.lastDate < d) :=
    not_or.mpr ⟨Nat.not_lt.mpr hv, Nat.not_lt.mpr hd⟩
  simp only [ownSetClock, if_neg hrange, if_pos (invalid hs)]

theorem ownSetWindow_invalid {kind number : Nat} {fields : Option WindowArgs} {w : Windows}
    (hw : windowsWith s.windows kind number fields = some w) :
    ownSetWindow kind number fields s = .done .storeInvalid (windowRecords s) s := by
  rw [ownSetWindow, hw]
  exact if_pos (invalid hs)

theorem ownSetParameter_invalid (hrange : parameterInRange n v = true) :
    ownSetParameter l (some n) (some v) s = withParameters l .storeInvalid s := by
  simp only [ownSetParameter, hrange, Bool.not_true, Bool.false_eq_true, if_false, if_pos (invalid hs)]

/-! ## The tables -/

theorem ownCancelAdvice_invalid (hg : isTag v = true) : ownCancelAdvice v s = declined .storeInvalid s := by
  rw [ownCancelAdvice, hg, if_neg (by decide), if_pos (invalid hs)]

theorem ownSetDepositor_invalid {d : DepositorId} {credential permissions allowance : Nat} {active coin clear : Bool}
    (hrange : depositorInRange (depositorArgs credential permissions allowance active coin clear) = true) :
    ownSetDepositor d.val (depositorArgs credential permissions allowance active coin clear) s =
      declined .storeInvalid s := by
  simp only [ownSetDepositor, hrange, index_val, depositorArgs_state, depositorArgs_kind, if_pos (invalid hs)]

theorem ownRemoveDepositor_invalid {d : DepositorId} : ownRemoveDepositor d.val s = declined .storeInvalid s := by
  simp only [ownRemoveDepositor, index_val, if_pos (invalid hs)]

theorem ownClearReason_invalid {k : Fin 12} : ownClearReason n (k.val + 1) s = declined .storeInvalid s := by
  obtain ⟨x, hx, _⟩ := holdReason_of_place k
  simp only [ownClearReason, hx, if_pos (invalid hs)]

/-! ## The chutes, the station and the cabinet -/

theorem ownIntakeMask_invalid {k : ChuteId} : ownIntakeMask k.val s = declined .storeInvalid s := by
  simp only [ownIntakeMask, index_val, if_pos (invalid hs)]

theorem ownIntakeUnmask_invalid {k : ChuteId} : ownIntakeUnmask k.val s = declined .storeInvalid s := by
  simp only [ownIntakeUnmask, index_val, if_pos (invalid hs)]

theorem ownClearChute_invalid {k : ChuteId} : ownClearChute l k.val s = declined .storeInvalid s := by
  simp only [ownClearChute, index_val, if_pos (invalid hs)]

theorem ownReEnter_invalid (hn : n ≠ 0) : ownReEnter l n s = declined .storeInvalid s := by
  rw [ownReEnter, if_neg hn, if_pos (invalid hs)]

theorem ownSetRule_invalid {i : Fin 8} {a : RuleArgs} {r : CheckRule} (hr : ruleOf a = some r) :
    ownSetRule (i.val + 1) a s = declined .storeInvalid s := by
  simp only [ownSetRule, Nat.add_one_ne_zero, if_false, Nat.add_sub_cancel, index_val, hr, if_pos (invalid hs)]

theorem ownSetCompartment_invalid {b : CompartmentId} {k : BoxClass} {service : Bool} :
    ownSetCompartment b.val (if k = .standard then 1 else 2) (if service then 1 else 2) s =
      declined .storeInvalid s := by
  simp only [ownSetCompartment, index_val, atPlace_boxClasses, atPlace_whether, if_pos (invalid hs)]

theorem ownSetReserve_invalid {code : Nat} {k : BoxClass} (hk : atPlace boxClasses code = some k)
    (hmax : n ≤ maxReserve k) (hn : n ≤ (boxesOf s k).length) : ownSetReserve code n s = declined .storeInvalid s := by
  have hrange : ¬ (maxReserve k < n ∨ (boxesOf s k).length < n) := by omega
  simp only [ownSetReserve, hk, if_neg hrange, if_pos (invalid hs)]

theorem doorCommand_invalid {g : Gate} {access listOk : Bool} {accept : CompartmentId → Answer} {b : CompartmentId}
    (hlist : listOk = true) : doorCommand l g access b.val listOk accept s = declined .storeInvalid s := by
  simp only [doorCommand, index_val, hlist, Bool.not_true, Bool.false_eq_true, if_false, if_pos (invalid hs)]

theorem ownOpenDoor_invalid (b : CompartmentId) : ownOpenDoor l b.val s = declined .storeInvalid s :=
  doorCommand_invalid hs rfl

theorem ownInventory_invalid (b : CompartmentId) : ownInventory l b.val s = declined .storeInvalid s :=
  doorCommand_invalid hs rfl

/-! ## The counts and the manifest -/

theorem ownCountResult_invalid {notes coins : Nat} (hn : n ≠ 0) (hnotes : notes ≤ 999999999)
    (hcoins : coins ≤ 999999999) : ownCountResult n notes coins s = declined .storeInvalid s := by
  have hrange : ¬ (n = 0 ∨ Config.maxAmount < notes ∨ Config.maxAmount < coins) :=
    not_or.mpr ⟨hn, not_or.mpr ⟨Nat.not_lt.mpr hnotes, Nat.not_lt.mpr hcoins⟩⟩
  rw [ownCountResult, if_neg hrange, if_pos (invalid hs)]

theorem ownManifestAdd_invalid (hn : n ≠ 0) : ownManifestAdd n s = withManifest .storeInvalid [] s := by
  rw [ownManifestAdd, if_neg hn, if_pos (invalid hs)]

theorem ownManifestDrop_invalid (hn : n ≠ 0) : ownManifestDrop n s = withManifest .storeInvalid [] s := by
  rw [ownManifestDrop, if_neg hn, if_pos (invalid hs)]

end

/-- R191: the custody numbers of HAND OUT, none of them 0 and none twice. -/
theorem handOutList_ok {ns : List Nat} (hnodup : ns.Nodup) (hzero : ∀ n ∈ ns, n ≠ 0) :
    (ns.all (· != 0) && decide ns.Nodup) = true := by
  rw [decide_eq_true hnodup, Bool.and_true, List.all_eq_true]
  exact fun n hn => bne_iff_ne.mpr (hzero n hn)

theorem decide_length {α : Type} {as : List α} {m : Nat} (hone : 1 ≤ as.length) (hmost : as.length ≤ m) :
    (decide (1 ≤ as.length) && decide (as.length ≤ m)) = true := by
  rw [decide_eq_true hone, decide_eq_true hmost]
  rfl

theorem notLong {p : Prop} (h : c.isLong = false) : c.isLong = true → p := fun hl => by
  rw [h] at hl
  cases hl

end Sys2Proof.Machine

open Sys2Proof Sys2Proof.Machine

/-- Settles O15: each row refuses with its own answer, its operands being in range. -/
theorem invalidStoreRefusesCommands : Obligations.InvalidStoreRefusesCommands := by
  unfold Obligations.InvalidStoreRefusesCommands
  refine fun tag s hs => ⟨fun l hl => ?_, fun hl => ?_, fun l hle hl => ?_, fun hl => ?_,
    fun l c ns hne hl hidle hone hmost hnodup hzero => ?_,
    fun hl n notes coins hn hnotes hcoins => ?_, fun hl => ?_⟩
  · refine ⟨fun n hn => ?_, fun st c d date hdate => ?_, fun g hg hg' => ?_, fun v hv hv' => ?_,
      fun i => ?_, ?_⟩
    · exact congrArg _ (takeInvalid (c := .readRecord) hl rfl (notLong rfl) Command.noConfusion
        (ownReadRecord_invalid (s := received l s) hs hn))
    · exact congrArg _ (takeInvalid (c := .listRecords) hl rfl (notLong rfl) Command.noConfusion
        (ownListRecords_invalid (s := received l s) hs (criteria_inRange (st := st) (box := c) (d := d) hdate)))
    · exact congrArg _ (takeInvalid (c := .readAdvice) hl rfl (notLong rfl) Command.noConfusion
        (ownReadAdvice_tag_invalid (s := received l s) hs (isTag_iff.mpr ⟨hg, hg'⟩)))
    · exact congrArg _ (takeInvalid (c := .readAdvice) hl rfl (notLong rfl) Command.noConfusion
        (ownReadAdvice_selector_invalid (s := received l s) hs ⟨hv, hv'⟩))
    · exact congrArg _ (takeInvalid (c := .readDepositor) hl rfl (notLong rfl) Command.noConfusion
        (ownReadDepositor_invalid (s := received l s) hs))
    · exact congrArg _ (takeInvalid (c := .readDepositor) hl rfl (notLong rfl) Command.noConfusion
        (if_pos (invalid (s := received l s) hs)))
  · refine ⟨fun t d ht hd => ?_, ?_, fun i on base ignore links ops hbase hignore hlinks hops => ?_,
      fun i on lo hi tlo thi links ops hlohi hhi htlo hthi hlinks hops => ?_, fun i => ?_, fun i => ?_⟩
    · exact takeSetClock (t := s) hl rfl (ownSetClock_invalid (s := received 0 s) hs ht hd)
    · exact takeSetClock (t := s) hl rfl (if_pos (invalid (s := received 0 s) hs))
    · exact congrArg _ (takeInvalid (c := .setWindow) hl rfl (notLong rfl) Command.noConfusion
        (ownSetWindow_invalid (s := received 0 s) hs (windowsWith_protection hbase hignore hlinks hops)))
    · exact congrArg _ (takeInvalid (c := .setWindow) hl rfl (notLong rfl) Command.noConfusion
        (ownSetWindow_invalid (s := received 0 s) hs (windowsWith_detection hlohi hhi htlo hthi hlinks hops)))
    · exact congrArg _ (takeInvalid (c := .setWindow) hl rfl (notLong rfl) Command.noConfusion
        (ownSetWindow_invalid (s := received 0 s) hs windowsWith_protection_none))
    · exact congrArg _ (takeInvalid (c := .setWindow) hl rfl (notLong rfl) Command.noConfusion
        (ownSetWindow_invalid (s := received 0 s) hs windowsWith_detection_none))
  · refine ⟨fun n v lo hi hlink hrange hlo hhi => ?_, ?_⟩
    · exact takeSetParameter (t := s) hl (parameterAllowed_own hlink) rfl
        (ownSetParameter_invalid (s := received l s) hs ((parameterInRange_iff hrange).mpr ⟨hlo, hhi⟩))
    · exact takeSetParameter (t := s) hl (parameterAllowed_none hle) rfl (if_pos (invalid (s := received l s) hs))
  · refine ⟨fun es hone hmost => ?_, fun g hg hg' => ?_,
      fun d credential permissions allowance active coin clear hone hmost hperm hallow hallow' => ?_, fun d => ?_,
      fun n k => ?_, fun n => ?_, fun date hidle => ?_, fun c => ⟨?_, ?_, ?_⟩, ?_, ?_, fun n hn => ?_, ?_,
      fun i q c reference a hlo hhi => ?_, fun c k service => ?_, fun n hmax hn => ?_, fun n hmax hn => ?_, ?_⟩
    · exact congrArg _ (takeCommand_done (c := .loadAdvice) hl rfl (decide_length hone hmost) (notLong rfl)
        Command.noConfusion (if_pos (invalid (s := received 1 s) hs)))
    · exact congrArg _ (takeInvalid (c := .cancelAdvice) hl rfl (notLong rfl) Command.noConfusion
        (ownCancelAdvice_invalid (s := received 1 s) hs (isTag_iff.mpr ⟨hg, hg'⟩)))
    · exact takeSetDepositor (t := s) (clear := clear) hl (ownSetDepositor_invalid (s := received 1 s) hs
        (depositorArgs_inRange hone hmost hperm hallow hallow'))
    · exact congrArg _ (takeInvalid (c := .removeDepositor) hl rfl (notLong rfl) Command.noConfusion
        (ownRemoveDepositor_invalid (s := received 1 s) hs))
    · exact takeClearReason (t := s) hl (ownClearReason_invalid (s := received 1 s) hs)
    · exact takeVoid (t := s) hl (if_pos (invalid (s := received 1 s) hs))
    · exact congrArg _ (takeInvalid (c := .purge) hl rfl (fun _ => hidle) Command.noConfusion
        (if_pos (invalid (s := received 1 s) hs)))
    · exact congrArg _ (takeInvalid (c := .intake) hl rfl (notLong rfl) Command.noConfusion
        (ownIntakeMask_invalid (s := received 1 s) hs))
    · exact congrArg _ (takeInvalid (c := .intake) hl rfl (notLong rfl) Command.noConfusion
        (ownIntakeUnmask_invalid (s := received 1 s) hs))
    · exact congrArg _ (takeInvalid (c := .clearChute) hl rfl (notLong rfl) Command.noConfusion
        (ownClearChute_invalid (s := received 1 s) hs))
    · exact congrArg _ (takeInvalid (c := .intake) hl rfl (notLong rfl) Command.noConfusion
        (if_pos (invalid (s := received 1 s) hs)))
    · exact congrArg _ (takeInvalid (c := .intake) hl rfl (notLong rfl) Command.noConfusion
        (if_pos (invalid (s := received 1 s) hs)))
    · exact congrArg _ (takeInvalid (c := .reEnter) hl rfl (notLong rfl) Command.noConfusion
        (ownReEnter_invalid (s := received 1 s) hs hn))
    · exact congrArg _ (takeInvalid (c := .clearStation) hl rfl (notLong rfl) Command.noConfusion
        (if_pos (invalid (s := received 1 s) hs)))
    · exact congrArg _ (takeInvalid (c := .setRule) hl rfl (notLong rfl) Command.noConfusion
        (ownSetRule_invalid (s := received 1 s) hs (ruleOf_places hlo hhi)))
    · exact congrArg _ (takeInvalid (c := .setCompartment) hl rfl (notLong rfl) Command.noConfusion
        (ownSetCompartment_invalid (s := received 1 s) hs))
    · exact congrArg _ (takeInvalid (c := .setReserve) hl rfl (notLong rfl) Command.noConfusion
        (ownSetReserve_invalid (s := received 1 s) (k := .standard) hs rfl hmax hn))
    · exact congrArg _ (takeInvalid (c := .setReserve) hl rfl (notLong rfl) Command.noConfusion
        (ownSetReserve_invalid (s := received 1 s) (k := .coin) hs rfl hmax hn))
    · exact fun c hidle =>
        ⟨congrArg _ (takeInvalid (c := .openDoor) hl rfl (fun _ => hidle) Command.noConfusion
          (ownOpenDoor_invalid (s := received 1 s) hs c)),
        congrArg _ (takeInvalid (c := .inventory) hl rfl (fun _ => hidle) Command.noConfusion
          (ownInventory_invalid (s := received 1 s) hs c))⟩
  · exact congrArg _ (takeCommand_done (c := .handOut) hl (bne_iff_ne.mpr hne) (decide_length hone hmost)
      (fun _ => hidle) Command.noConfusion (doorCommand_invalid (s := received l s) hs (handOutList_ok hnodup hzero)))
  · exact takeCountResult (t := s) hl (ownCountResult_invalid (s := received 2 s) hs hn hnotes hcoins)
  · refine ⟨?_, fun n hn => ⟨?_, ?_⟩, ?_, ?_⟩
    · exact congrArg _ (takeManifest (c := .manifestOpen) (t := s) hl rfl rfl Command.noConfusion
        (if_pos (invalid (s := received 3 s) hs)))
    · exact congrArg _ (takeManifest (c := .manifestAdd) (t := s) hl rfl rfl Command.noConfusion
        (ownManifestAdd_invalid (s := received 3 s) hs hn))
    · exact congrArg _ (takeManifest (c := .manifestDrop) (t := s) hl rfl rfl Command.noConfusion
        (ownManifestDrop_invalid (s := received 3 s) hs hn))
    · exact congrArg _ (takeManifest (c := .manifestClose) (t := s) hl rfl rfl Command.noConfusion
        (if_pos (invalid (s := received 3 s) hs)))
    · exact congrArg _ (takeManifest (c := .manifestAbandon) (t := s) hl rfl rfl Command.noConfusion
        (if_pos (invalid (s := received 3 s) hs)))

end

section
-- One theorem after another: elaborated side by side, the whole text asks for more threads than the check has memory for.
set_option Elab.async false
/-! The doors: what the sensor moves, the unlock window, and the commands that open them (R130 to R140). -/

namespace Sys2Proof.Machine

variable {s t : State} {l : LinkId} {tag n : Nat} {c : CompartmentId} {op : DoorOp} {ms : Nat} {g : Gate}
  {ns : List Nat} {work : DoorWork}

/-! ## The sensor -/

theorem exec_doorClosed : exec (.doorClosed c) s = .next (closedDoor c s) := rfl

theorem closedDoor_of_opened {forced : Bool} {inFlight : Option DoorOp} {left : Option Nat}
    (h : (s.cabinet.compartments.get c).door = .opened forced inFlight left) :
    closedDoor c s = testLowMarks (retry (setDoor c (.scanning (inFlight.getD .unattended) Config.scanMs) s)) := by
  rw [closedDoor, State.box, h]

theorem closedDoor_of_not_opened (h : ∀ f o m, (s.cabinet.compartments.get c).door ≠ .opened f o m) :
    closedDoor c s = s := by
  rw [closedDoor]
  split
  next f o m hdoor => exact absurd hdoor (h f o m)
  next => rfl

/-! ## The unlock window -/

theorem exec_unlockWindowExpiry : exec (.unlockWindowExpiry c) s = .next (expireUnlock c s) := rfl

theorem expireUnlock_of_unlocked (h : (s.cabinet.compartments.get c).door = .unlocked op ms) :
    expireUnlock c s = retestedIf true (endDoorOp op .notOpened [] (setDoor c .locked s)) := by
  simp only [expireUnlock, State.box, h, retestedIf_true]

theorem retestedIf_link {b : Bool} {i : LinkId} :
    (retestedIf b t).links.get i = { t.links.get i with notices := ((retestedIf b t).links.get i).notices } := by
  cases b with
  | true => rw [retestedIf_true, testLowMarks_get, retry_links]
  | false => rw [retestedIf_false, testLowMarks_get]

/-! ## The detection windows -/

/-- R162: the records of the bags a detected operation touches. -/
theorem markDetected_eq :
    markDetected ns s =
      { s with
        register :=
          { s.register with
            records := s.register.records.map fun r => if r.number ∈ ns then { r with detected := true } else r } } :=
  foldl_modifyRecord (f := fun r => { r with detected := true }) (fun _ => rfl) (fun _ => rfl) ns s

theorem detect_eq :
    detect l g c ns s =
      if isDetected s l g c then
        raise .detected
          { s with
            register :=
              { s.register with
                records := s.register.records.map fun r => if r.number ∈ ns then { r with detected := true } else r } }
      else s := by
  rw [detect, markDetected_eq]

theorem detect_received {i : LinkId} : detect l g c ns (received i s) = received i (detect l g c ns s) := by
  rw [detect_eq, detect_eq, apply_ite (received i), ← raise_received]
  rfl

theorem detect_store : (detect l g c ns s).store = s.store := by
  rw [detect_eq]
  split <;> rfl

/-! ## The commands at the doors -/

section
variable {access listOk : Bool} {accept : CompartmentId → Answer} {code : CompletionCode}

theorem doorCommand_of_protected (hlist : listOk = true) (hvalid : s.store.valid = true)
    (h : isProtectedFrom s l g c = true) :
    doorCommand l g access c.val listOk accept s = .done .isProtected [] (raise .isProtected s) := by
  simp only [doorCommand, index_val, hlist, Bool.not_true, Bool.false_eq_true, if_false,
    if_neg (not_valid hvalid), if_pos h]

theorem doorCommand_of_refused (hlist : listOk = true) (hvalid : s.store.valid = true)
    (h : isProtectedFrom s l g c = false) (hbank : bankRefusal s l c = some code) :
    doorCommand l g true c.val listOk accept s = declined code s := by
  simp only [doorCommand, index_val, hlist, Bool.not_true, if_neg (not_valid hvalid), h,
    hbank, Bool.false_eq_true, if_false, if_true]

theorem doorCommand_of_busy (hlist : listOk = true) (hvalid : s.store.valid = true)
    (h : isProtectedFrom s l g c = false) (hbank : access = true → bankRefusal s l c = none)
    (hop : (s.cabinet.compartments.get c).door.operation ≠ none) :
    doorCommand l g access c.val listOk accept s = declined .busy s := by
  have hnone : (if access = true then bankRefusal s l c else none) = none := ite_eq_right_iff.mpr hbank
  have hbusy : (s.box c).door.operation.isSome = true ∨ pendingAt s c ≠ 0 := .inl (Option.isSome_iff_ne_none.mpr hop)
  simp only [doorCommand, index_val, hlist, Bool.not_true, if_neg (not_valid hvalid), h,
    hnone, Bool.false_eq_true, if_false, if_pos hbusy]

theorem doorCommand_of_locked (hlist : listOk = true) (hvalid : s.store.valid = true)
    (h : isProtectedFrom s l g c = false) (hbank : access = true → bankRefusal s l c = none)
    (hdoor : (s.cabinet.compartments.get c).door = .locked) (hpending : pendingAt s c = 0) :
    doorCommand l g access c.val listOk accept s = accept c := by
  have hnone : (if access = true then bankRefusal s l c else none) = none := ite_eq_right_iff.mpr hbank
  have hfree : ¬ ((s.box c).door.operation.isSome = true ∨ pendingAt s c ≠ 0) := by
    rw [State.box, hdoor, hpending]
    exact fun h => h.elim (fun h => by cases h) fun h => h rfl
  have hlocked : ¬ ((s.box c).door ≠ .locked) := fun h => h hdoor
  simp only [doorCommand, index_val, hlist, Bool.not_true, if_neg (not_valid hvalid), h,
    hnone, Bool.false_eq_true, if_false, if_neg hfree, if_neg hlocked]

end

theorem bankRefusal_of_locked (h : s.claims.safe = .locked) : bankRefusal s l c = some .safeLocked := if_pos h

theorem bankRefusal_of_opened (h : s.claims.safe = .opened) :
    bankRefusal s l c = if holds s l (bankResource (bankOf c)) then none else some .notClaimed :=
  if_neg (h ▸ SafeState.noConfusion)

theorem bankRefusal_of_held (h : s.claims.safe = .opened)
    (hheld : ∃ k, s.claims.resources.get (bankResource (bankOf c)) = .held l k) : bankRefusal s l c = none :=
  (bankRefusal_of_opened h).trans (if_pos (holds_eq_true.mpr hheld))

theorem bankRefusal_of_not_held (h : s.claims.safe = .opened)
    (hheld : ∀ k, s.claims.resources.get (bankResource (bankOf c)) ≠ .held l k) :
    bankRefusal s l c = some .notClaimed :=
  (bankRefusal_of_opened h).trans (if_neg fun hh => by
    obtain ⟨k, hk⟩ := holds_eq_true.mp hh
    exact hheld k hk)

theorem unlockFor_detect_received {i : LinkId} :
    unlockFor l work c (detect l g c ns (received i s)) =
      received i (setDoor c (.unlocked (.command l work .deliver) (s.store.params.unlockWindow * 1000))
        (detect l g c ns s)) := by
  rw [unlockFor, detect_store, detect_received]
  rfl

/-! ## HAND OUT -/

/-- R136: what a named bag must be for the link to take it. -/
theorem mayHandOut_eq_true {r : Record} (hbox : r.compartment = some c)
    (hstate : r.state = .stored ∨ l = 1 ∧ r.state = .held)
    (hcarrier : l = 3 → r.handling = some .through ∧ ∃ m, s.manifest.current = some m ∧ r.number ∈ m.entries) :
    mayHandOut s l c r = true := by
  rw [mayHandOut, hbox, beq_self_eq_true, Bool.true_and]
  by_cases hl : l = 3
  · obtain ⟨hthrough, m, hm, hmem⟩ := hcarrier hl
    have hstored : r.state = .stored := hstate.resolve_right fun h => by
      rw [hl] at h
      exact absurd h.1 (by decide)
    rw [if_pos hl, hstored, hthrough, inManifest, hm]
    exact List.contains_iff_mem.mpr hmem
  · rw [if_neg hl]
    by_cases htwo : l = 2
    · have hstored : r.state = .stored := hstate.resolve_right fun h => by
        rw [htwo] at h
        exact absurd h.1 (by decide)
      rw [if_pos htwo, hstored]
      rfl
    · rw [if_neg htwo]
      rcases hstate with h | ⟨_, h⟩ <;> rw [h] <;> rfl

theorem handOutFailure_eq_none (h : ∀ n ∈ ns, ∃ r, s.find n = some r ∧ mayHandOut s l c r = true) :
    handOutFailure s l c ns = none := by
  have hfound : (ns.find? fun n => (s.find n).isNone) = none := List.find?_eq_none.mpr fun n hn => by
    obtain ⟨r, hr, _⟩ := h n hn
    rw [hr]
    exact Bool.false_ne_true
  have hmay : (ns.find? fun n => !(s.find n).any (mayHandOut s l c)) = none := List.find?_eq_none.mpr fun n hn => by
    obtain ⟨r, hr, hm⟩ := h n hn
    rw [hr, Option.any_some, hm]
    exact Bool.false_ne_true
  rw [handOutFailure, hfound, hmay]
  rfl

theorem acceptHandOut_of_none (h : handOutFailure s l c ns = none) :
    acceptHandOut l ns s c = .started (unlockFor l (.handOut (destinationOf l) ns) c (detect l .handOut c ns s)) := by
  rw [acceptHandOut, h]

end Sys2Proof.Machine

open Sys2Proof Sys2Proof.Machine

/-- Settles O47: a door moves by its sensor as its state tells. -/
theorem doorSensorMovesTheDoor : Obligations.DoorSensorMovesTheDoor := by
  unfold Obligations.DoorSensorMovesTheDoor
  refine fun c s => ⟨fun op ms hdoor => ⟨?_, ?_⟩, fun hdoor => ⟨?_, ?_⟩, fun op ms hdoor => ⟨?_, ?_⟩,
    fun forced op left hdoor => ⟨?_, ?_⟩⟩
  · rw [exec_doorOpened, openedDoor_of_unlocked hdoor, leftOpenStart]
  · rw [exec_doorClosed, closedDoor_of_not_opened fun _ _ _ => hdoor ▸ Door.noConfusion]
  · rw [exec_doorOpened, openedDoor_of_locked hdoor, leftOpenStart]
  · rw [exec_doorClosed, closedDoor_of_not_opened fun _ _ _ => hdoor ▸ Door.noConfusion]
  · rw [exec_doorOpened, openedDoor_of_scanning hdoor, leftOpenStart]
  · rw [exec_doorClosed, closedDoor_of_not_opened fun _ _ _ => hdoor ▸ Door.noConfusion]
  · rw [exec_doorOpened, openedDoor_of_opened hdoor]
  · rw [exec_doorClosed, closedDoor_of_opened hdoor, Config.scanMs]

/-- Settles O49: the door locks again, and the link that unlocked it has its answer. -/
theorem unlockWindowEndsNotOpened : Obligations.UnlockWindowEndsNotOpened := by
  unfold Obligations.UnlockWindowEndsNotOpened
  intro c l work d ms cmd tag delivery s hdoor hlong
  refine ⟨_, exec_unlockWindowExpiry, ?_⟩
  rw [expireUnlock_of_unlocked hdoor]
  generalize hu : endDoorOp (.command l work d) .notOpened [] (setDoor c .locked s) = u
  have hself : u.links.get l = (s.links.get l).longEnded .notOpened [] := by
    subst hu
    exact modifyLink_get_self
  have hother : ∀ i, i ≠ l → u.links.get i = s.links.get i := fun i hi => by
    subst hu
    exact modifyLink_get_ne hi
  refine ⟨?_, ?_, ?_, fun i hi => ?_, fun hblocked => ?_, ?_⟩
  · rw [retestedIf_cabinet.1, ← hu]
    rfl
  · rintro rfl
    rw [retestedIf_link, hself, Link.longEnded_deliver hlong]
    rfl
  · rintro rfl
    rw [retestedIf_link, hself, Link.longEnded_discard hlong]
  · rw [retestedIf_link, hother i hi]
  · subst hu
    exact retestedIf_of_not_blocked hblocked
  · refine retestedIf_eq.trans ?_
    subst hu
    rfl

/-- Settles O50: the three door commands, accepted at a locked door. -/
theorem doorCommandsAreAccepted : Obligations.DoorCommandsAreAccepted := by
  unfold Obligations.DoorCommandsAreAccepted
  intro l tag c s hl hlong hvalid hdoor hpending
  refine ⟨?_, ?_, fun ns hne hheld hprot hone hmost hnodup hnamed => ?_⟩
  · rintro rfl ⟨hsafe, hheld⟩ hprot
    refine congrArg _ (takePlain_started (c := .openDoor) hl rfl hlong ?_)
    rw [ownOpenDoor, doorCommand_of_locked (s := received 1 s) rfl hvalid hprot
      (fun _ => bankRefusal_of_held (s := received 1 s) hsafe hheld) hdoor hpending,
      unlockFor_detect_received, detect_eq]
    rfl
  · rintro rfl hprot
    refine congrArg _ (takePlain_started (c := .inventory) hl rfl hlong ?_)
    rw [ownInventory, doorCommand_of_locked (s := received 1 s) rfl hvalid hprot
      (fun h => by cases h) hdoor hpending, detect_received, detect_eq]
    rfl
  · refine congrArg _ (takeCommand_started (c := .handOut) hl (bne_iff_ne.mpr hne) (decide_length hone hmost) hlong ?_)
    have hfailure : handOutFailure (received l s) l c ns = none := handOutFailure_eq_none fun n hn => by
      obtain ⟨_, r, hr, hbox, hnumber, hstate, hcarrier⟩ := hnamed n hn
      exact ⟨r, hr, mayHandOut_eq_true (s := received l s) hbox hstate fun h => hnumber ▸ hcarrier h⟩
    rw [ownHandOut, doorCommand_of_locked (s := received l s) (handOutList_ok hnodup fun n hn => (hnamed n hn).1) hvalid
      hprot (fun _ => bankRefusal_of_held (s := received l s) hheld.1 hheld.2) hdoor hpending,
      acceptHandOut_of_none hfailure, unlockFor_detect_received, detect_eq]
    rfl

/-- Settles O51: the refusals of OPEN DOOR, in the order that they are tested. -/
theorem openIsRefusedInOrder : Obligations.OpenIsRefusedInOrder := by
  unfold Obligations.OpenIsRefusedInOrder
  refine fun tag c s hl hlong hvalid => ⟨fun hprot => ?_, fun hprot hsafe => ?_, fun hprot hsafe hheld => ?_,
    fun hprot hsafe hheld hop => ?_⟩
  · refine congrArg _ (takePlain_done (c := .openDoor) hl rfl (fun _ => hlong) Command.noConfusion ?_)
    rw [ownOpenDoor, doorCommand_of_protected (s := received 1 s) rfl hvalid hprot, raise_received]
  · refine congrArg _ (takePlain_done (c := .openDoor) hl rfl (fun _ => hlong) Command.noConfusion ?_)
    exact doorCommand_of_refused (s := received 1 s) rfl hvalid hprot (bankRefusal_of_locked (s := received 1 s) hsafe)
  · refine congrArg _ (takePlain_done (c := .openDoor) hl rfl (fun _ => hlong) Command.noConfusion ?_)
    exact doorCommand_of_refused (s := received 1 s) rfl hvalid hprot
      (bankRefusal_of_not_held (s := received 1 s) hsafe hheld)
  · refine congrArg _ (takePlain_done (c := .openDoor) hl rfl (fun _ => hlong) Command.noConfusion ?_)
    exact doorCommand_of_busy (s := received 1 s) rfl hvalid hprot
      (fun _ => bankRefusal_of_held (s := received 1 s) hsafe hheld) hop

end

section
-- One theorem after another: elaborated side by side, the whole text asks for more threads than the check has memory for.
set_option Elab.async false
/-! The scan behind a closed door: the bags recovered and the bags handed out (R137 to R142). -/

namespace Sys2Proof.Machine

variable {s t u : State} {l : LinkId} {tag n g : Nat} {c i : CompartmentId} {op : DoorOp} {ms : Nat} {tags : List Nat}
  {r : Record} {results : List ResultRecord} {st : RecordState}

/-! ## The end of a scan -/

/-- R142: the scan's end: the door locks, its command is answered, and the places are tested again. -/
def scanEnded (c : CompartmentId) (op : DoorOp) (results : List ResultRecord) (u : State) : State :=
  retestedIf true (endDoorOp op .ok results (setDoor c .locked u))

theorem exec_scanDone : exec (.scanDone c tags) s = .next (finishScan c tags s) := rfl

theorem finishScan_of_scanning (h : (s.cabinet.compartments.get c).door = .scanning op ms) :
    finishScan c tags s =
      scanEnded c op (reconcile c op (scannedTags tags) s).2 (reconcile c op (scannedTags tags) s).1 := by
  rw [finishScan, State.box, h]
  rfl

theorem scanEnded_compartments :
    (scanEnded c op results u).cabinet.compartments = (setDoor c .locked u).cabinet.compartments := by
  rw [scanEnded, retestedIf_cabinet.1, endDoorOp_cabinet]

theorem scanEnded_box :
    (scanEnded c op results u).cabinet.compartments.get c = { u.cabinet.compartments.get c with door := .locked } := by
  rw [scanEnded_compartments]
  exact Table.get_set_self ..

theorem scanEnded_box_ne (h : i ≠ c) :
    (scanEnded c op results u).cabinet.compartments.get i = u.cabinet.compartments.get i := by
  rw [scanEnded_compartments]
  exact Table.get_set_ne _ _ h

theorem scanEnded_occupants :
    ((scanEnded c op results u).cabinet.compartments.get i).occupants = (u.cabinet.compartments.get i).occupants := by
  by_cases h : i = c
  · rw [h, scanEnded_box]
  · rw [scanEnded_box_ne h]

theorem scanEnded_recordAt (hr : RecordAt u n r) (h : ∀ src, u.station.state ≠ .blocked n src) :
    RecordAt (scanEnded c op results u) n r := by
  have hr' : RecordAt (endDoorOp op .ok results (setDoor c .locked u)) n r := by
    rw [RecordAt, endDoorOp_register]
    exact hr
  have hretried := RecordAt.retry hr' (by rw [endDoorOp_station]; exact h)
  rw [scanEnded, retestedIf_true, RecordAt, testLowMarks_register]
  exact hretried

theorem scanEnded_mem (hr : r ∈ u.register.records) (h : ∀ src, u.station.state ≠ .blocked r.number src) :
    r ∈ (scanEnded c op results u).register.records := by
  rw [scanEnded, retestedIf_true, testLowMarks_register]
  refine retry_mem ?_ ?_
  · rw [endDoorOp_register]
    exact hr
  · rw [endDoorOp_station]
    exact h

theorem scanEnded_eq :
    scanEnded c op results u =
      { u with
        register := { u.register with records := (scanEnded c op results u).register.records }
        station := (scanEnded c op results u).station
        cabinet := (scanEnded c op results u).cabinet
        links := (scanEnded c op results u).links } := by
  unfold scanEnded
  rw [retestedIf_true, testLowMarks_eq, retry_eq]
  cases op <;> rfl

theorem scanEnded_current : (scanEnded c op results u).register.current = u.register.current := by
  rw [scanEnded_eq]

theorem scanEnded_manifest : (scanEnded c op results u).manifest = u.manifest := by
  rw [scanEnded_eq]

/-- What the reconciliation of a compartment moves: the records, the counts, the cabinet, the manifest and the links. -/
def ScanMoved (s u : State) : Prop :=
  ∃ records current cabinet manifest links, u =
    { s with
      register := { s.register with records := records, current := current }
      cabinet := cabinet
      manifest := manifest
      links := links }

theorem ScanMoved.trans {v : State} (h : ScanMoved s u) (h' : ScanMoved u v) : ScanMoved s v := by
  obtain ⟨_, _, _, _, _, rfl⟩ := h
  obtain ⟨_, _, _, _, _, rfl⟩ := h'
  exact ⟨_, _, _, _, _, rfl⟩

theorem ScanMoved.station (h : ScanMoved s u) : u.station = s.station := by
  obtain ⟨_, _, _, _, _, rfl⟩ := h
  rfl

theorem enterForeign_moved {foreign : List Nat} : ScanMoved u (enterForeign c foreign u) := by
  rw [enterForeign, raiseTimes_eq]
  exact ⟨_, _, _, _, _, rfl⟩

theorem ScanMoved.scanEnded (h : ScanMoved s u) :
    Machine.scanEnded c op results u =
      { s with
        register :=
          { s.register with
            records := (Machine.scanEnded c op results u).register.records
            current := (Machine.scanEnded c op results u).register.current }
        station := (Machine.scanEnded c op results u).station
        cabinet := (Machine.scanEnded c op results u).cabinet
        manifest := (Machine.scanEnded c op results u).manifest
        links := (Machine.scanEnded c op results u).links } := by
  refine scanEnded_eq.trans ?_
  rw [scanEnded_manifest, scanEnded_current]
  generalize Machine.scanEnded c op results u = t
  obtain ⟨_, _, _, _, _, rfl⟩ := h
  rfl

theorem ScanMoved.scanEnded_uncounted (h : ScanMoved s u) (hcurrent : u.register.current = s.register.current) :
    Machine.scanEnded c op results u =
      { s with
        register := { s.register with records := (Machine.scanEnded c op results u).register.records }
        station := (Machine.scanEnded c op results u).station
        cabinet := (Machine.scanEnded c op results u).cabinet
        manifest := (Machine.scanEnded c op results u).manifest
        links := (Machine.scanEnded c op results u).links } := by
  refine (h.scanEnded (c := c) (op := op) (results := results)).trans ?_
  rw [scanEnded_current, hcurrent]

theorem scanEnded_link {cmd : Command} {work : DoorWork} {d : Delivery}
    (hlong : (u.links.get l).long = some ⟨cmd, tag, .deliver⟩) :
    (scanEnded c (.command l work d) results u).links.get l =
      { u.links.get l with
        long := none
        held := results
        phase := if results.isEmpty then .ready else .result
        queue := (u.links.get l).queue ++ [.done tag .ok results.length false]
        notices := ((scanEnded c (.command l work d) results u).links.get l).notices } := by
  have hself : (endDoorOp (.command l work d) .ok results (setDoor c .locked u)).links.get l =
      (u.links.get l).longEnded .ok results := modifyLink_get_self
  rw [scanEnded, retestedIf_link, hself, Link.longEnded_deliver hlong]

/-! ## The reconciliation -/

/-- The bags that left, of those that the compartment held. -/
def goneAt (s : State) (c : CompartmentId) (op : DoorOp) (tags : List Nat) : List (Nat × RecordState) :=
  departures s op tags (s.box c).occupants

theorem reconcile_eq {recovered foreign : List Nat}
    (h : recoverTags c (looseTags s (s.box c).occupants tags) ((goneAt s c op tags).foldl (depart c) s) =
      (u, recovered, foreign)) :
    reconcile c op tags s =
      (enterForeign c foreign u,
        reconciliationResults op (s.box c).occupants (goneAt s c op tags) recovered foreign s
          (enterForeign c foreign u)) := by
  rw [goneAt] at h ⊢
  simp only [reconcile, h]

theorem enterForeign_nil :
    enterForeign c [] u = modifyBox c (fun b => { b with foreign := [], furtherForeign := 0 }) u := rfl

theorem dropEntry_eq : dropEntry n s = { s with manifest := (dropEntry n s).manifest } := by
  unfold dropEntry
  split <;> rfl

theorem dropEntry_not_mem {m : Manifest} (h : (dropEntry n s).manifest.current = some m) : n ∉ m.entries := by
  cases hc : s.manifest.current with
  | none =>
    rw [dropEntry, hc] at h
    exact absurd (hc.symm.trans h) (Option.some_ne_none m).symm
  | some k =>
    rw [dropEntry_of_current hc] at h
    cases h
    exact fun hn => by simp at hn

/-! ## A bag found elsewhere -/

theorem soughtRecord_eq (hr : RecordAt s r.number r) (htag : r.tag = some g) (hlive : r.state.isTerminal = false)
    (hdup : hasReason r.reasons .duplicate = false)
    (honly : ∀ x ∈ s.register.records, x.tag = some g → x.number = r.number) : soughtRecord s g = some r := by
  have hat : (s.register.records.find? fun x => x.number == r.number) = some r := hr
  rw [List.find?_eq_some_iff_append] at hat
  obtain ⟨_, before, after, hsplit, hbefore⟩ := hat
  rw [soughtRecord, List.find?_eq_some_iff_append]
  refine ⟨by simp [hlive, htag, hdup], before, after, hsplit, fun x hx => ?_⟩
  have hother : x.tag ≠ some g := fun h => by
    have hnumber := honly x (by rw [hsplit]; exact List.mem_append_left _ hx) h
    have hne := hbefore x hx
    rw [hnumber] at hne
    simp at hne
  simp [hother]

theorem recoverable_eq (hsought : soughtRecord s g = some r) (hstate : r.state.isRecoverable = true)
    (hbox : r.compartment ≠ some c) : recoverable s c g = some r := by
  rw [recoverable, hsought]
  simp [hstate, hbox]

theorem recoverTags_one (h : recoverable s c g = some r) :
    recoverTags c [g] s = (recover c r s, [r.number], []) := by
  simp only [recoverTags, h]

theorem leaveOld_eq : leaveOld r s = { s with cabinet := (leaveOld r s).cabinet } := by
  unfold leaveOld
  split <;> rfl

theorem leaveOld_box_ne (h : r.compartment ≠ some i) :
    (leaveOld r s).cabinet.compartments.get i = s.cabinet.compartments.get i := by
  unfold leaveOld
  split
  next x hx =>
    have hne : i ≠ x := fun e => h (e ▸ hx)
    exact Table.get_set_ne _ _ hne
  next => rfl

theorem leaveOld_left (h : r.compartment = some i) :
    r.number ∉ ((leaveOld r s).cabinet.compartments.get i).occupants := by
  rw [leaveOld, h]
  intro hmem
  simp [leaveBox, modifyBox, Compartment.withOccupants] at hmem

/-- R141: the record of a recovered bag. -/
def Record.recovered (c : CompartmentId) (r : Record) : Record :=
  { r with state := .held, compartment := some c, reasons := addReason r.reasons .recovered }

theorem recover_eq :
    recover c r s =
      raise .recovered
        (modifyRecord r.number (Record.recovered c)
          { s with
            cabinet := (joinBox c r.number (leaveOld r s)).cabinet
            manifest := (dropEntry r.number (leaveOld r s)).manifest }) := by
  rw [recover, dropEntry_eq, leaveOld_eq]
  rfl

theorem recover_recordAt (hr : RecordAt s r.number r) : RecordAt (recover c r s) r.number (r.recovered c) := by
  rw [recover_eq, raise, RecordAt, raiseTimes_register]
  exact RecordAt.modify (fun _ => rfl) hr

theorem recover_cabinet : (recover c r s).cabinet = (joinBox c r.number (leaveOld r s)).cabinet := by
  rw [recover_eq]
  rfl

theorem recover_occupants (h : r.compartment ≠ some c) :
    ((recover c r s).cabinet.compartments.get c).occupants =
      (s.cabinet.compartments.get c).occupants ++ [r.number] := by
  rw [recover_cabinet, joinBox, modifyBox, Table.get_set_self, leaveOld_box_ne h]
  rfl

theorem recover_left (h : r.compartment = some i) (hi : i ≠ c) :
    r.number ∉ ((recover c r s).cabinet.compartments.get i).occupants := by
  rw [recover_cabinet, joinBox, modifyBox, Table.get_set_ne _ _ hi]
  exact leaveOld_left h

theorem recover_manifest {m : Manifest} (h : (recover c r s).manifest.current = some m) : r.number ∉ m.entries := by
  rw [recover_eq] at h
  exact dropEntry_not_mem h

theorem recover_others :
    recover c r s =
      { s with
        register := { s.register with records := (recover c r s).register.records }
        cabinet := (recover c r s).cabinet
        manifest := (recover c r s).manifest
        links := (recover c r s).links } := by
  rw [recover_eq]
  rfl

theorem recover_moved : ScanMoved s (recover c r s) := ⟨_, _, _, _, _, recover_others⟩

theorem recover_current : (recover c r s).register.current = s.register.current := by rw [recover_others]

/-! ## A bag handed out -/

/-- R138: the state of a bag handed out to a destination. -/
def Destination.outState (dest : Destination) : RecordState := if dest = .teller then .outTeller else .outCarrier

/-- R138: the record of a bag that left. -/
def Record.out (st : RecordState) (r : Record) : Record := { r with state := st, compartment := none }

theorem depart_eq :
    depart c s (n, st) = afterDeparture n st (modifyRecord n (Record.out st) (leaveBox c n s)) := rfl

theorem fate_of_named (htag : r.tag = some g) (hnamed : op.named = [n]) (hnumber : r.number = n) :
    fate s op [] r =
      if op.toCarrier then if inManifest s n then some .outCarrier else some .missing else some .outTeller := by
  subst hnumber
  have hin : op.named.contains r.number = true := by
    rw [hnamed]
    exact List.contains_iff_mem.mpr (List.mem_singleton_self _)
  simp only [fate, htag, hin, List.contains_nil, Bool.not_true, Bool.false_eq_true, if_false]
  cases op.toCarrier <;> rfl

/-- R138: the one bag of a compartment, named by the command and absent from the scan. -/
theorem departures_of_named {dest : Destination} {d : Delivery} (hr : RecordAt s n r) (htag : r.tag = some g)
    (hmanifest : dest = .carrier → ∃ m, s.manifest.current = some m ∧ n ∈ m.entries) :
    departures s (.command l (.handOut dest [n]) d) [] [n] = [(n, dest.outState)] := by
  have hfind : s.find n = some r := hr
  have hfate : fate s (.command l (.handOut dest [n]) d) [] r = some dest.outState := by
    rw [fate_of_named htag rfl hr.number]
    cases dest with
    | teller => rfl
    | carrier =>
      obtain ⟨m, hm, hmem⟩ := hmanifest rfl
      rw [inManifest, hm]
      exact if_pos (List.contains_iff_mem.mpr hmem)
  simp only [departures, List.filterMap_cons, List.filterMap_nil, hfind, Option.bind_some, hfate, Option.map_some]

/-- R138: the state after the one bag of a compartment has left by a hand-out. -/
theorem depart_outState {dest : Destination} :
    depart c s (n, dest.outState) =
      { s with
        register :=
          { s.register with
            records := modifyIn n (Record.out dest.outState) s.register.records
            current :=
              if dest = .teller then
                { s.register.current with handedToTeller := upTo65535 s.register.current.handedToTeller }
              else s.register.current }
        cabinet := (leaveBox c n s).cabinet
        manifest := (depart c s (n, dest.outState)).manifest } := by
  cases dest with
  | teller =>
    rw [depart_eq]
    change dropEntry n _ = _
    rw [dropEntry_eq]
    rfl
  | carrier => rfl

theorem leaveBox_box_of_only (h : (s.cabinet.compartments.get c).occupants = [n]) :
    (leaveBox c n s).cabinet.compartments.get c =
      { s.cabinet.compartments.get c with occupants := [], overfull := false, handling := none } := by
  rw [leaveBox, modifyBox, Table.get_set_self, h]
  simp [Compartment.withOccupants]

theorem handOut_results {dest : Destination} {d : Delivery} {before after : State} (hr : RecordAt before n r)
    (htag : r.tag = some g) {x : Record} (hafter : RecordAt after n x) :
    reconciliationResults (.command l (.handOut dest [n]) d) [n] [(n, dest.outState)] [] [] before after =
      [.classified .taken n (some x)] := by
  have hfind : before.find n = some r := hr
  have hclass : classOfNamed [n] [(n, dest.outState)] before n = .taken := by
    have hstate : dest.outState ≠ .missing := by cases dest <;> exact RecordState.noConfusion
    simp [classOfNamed, hstate, hfind, htag]
  have hnone : ([(n, dest.outState)].filter fun d' =>
      d'.2 == .missing && !(DoorOp.command l (.handOut dest [n]) d).named.contains d'.1) = [] := by
    cases dest <;> rfl
  have hshown : classifiedAs after .taken n = .classified .taken n (some x) := congrArg _ hafter
  rw [reconciliationResults, hnone]
  change [classifiedAs after (classOfNamed [n] _ before n) n] ++ [] = _
  rw [hclass, hshown]
  rfl

end Sys2Proof.Machine

open Sys2Proof Sys2Proof.Machine

/-- Settles O53: the bag is held where it is found, and named nowhere else. -/
theorem scanRecoversAKnownBag : Obligations.ScanRecoversAKnownBag := by
  unfold Obligations.ScanRecoversAKnownBag
  intro c op ms g r s hdoor hempty hlo hhi hr htag hdup honly hstate hbox hblocked
  have hlive : r.state.isTerminal = false ∧ r.state.isRecoverable = true := by
    rcases hstate with h | h | h | h | h | h <;> rw [h] <;> exact ⟨rfl, rfl⟩
  have hscanned : scannedTags [g] = [g] :=
    scannedTags_eq (fun x hx => List.mem_singleton.mp hx ▸ isTag_iff.mpr ⟨hlo, hhi⟩) (List.nodup_singleton g)
  have hrecover : recoverTags c (looseTags s (s.box c).occupants [g]) ((goneAt s c op [g]).foldl (depart c) s) =
      (recover c r s, [r.number], []) := by
    rw [goneAt, State.box, hempty]
    exact recoverTags_one (recoverable_eq (soughtRecord_eq hr htag hlive.1 hdup honly) hlive.2 hbox)
  have hfinish := finishScan_of_scanning (tags := [g]) hdoor
  rw [hscanned, reconcile_eq hrecover] at hfinish
  refine ⟨_, exec_scanDone, ?_⟩
  rw [hfinish]
  dsimp only
  refine ⟨?_, ?_, ?_, ?_, fun m hm => ?_, fun x hx => ?_, ?_⟩
  · refine scanEnded_recordAt (u := enterForeign c [] _) (recover_recordAt hr) fun src => ?_
    rw [enterForeign_nil, recover_others]
    exact hblocked src
  · rw [scanEnded_box, enterForeign_nil, modifyBox, Table.get_set_self, recover_occupants hbox, hempty]
    rfl
  · rw [scanEnded_box, enterForeign_nil, modifyBox, Table.get_set_self]
  · rw [scanEnded_box]
  · rw [scanEnded_manifest, enterForeign_nil] at hm
    exact recover_manifest (c := c) hm
  · have hne : x ≠ c := fun e => hbox (e ▸ hx)
    rw [scanEnded_box_ne hne, enterForeign_nil, modifyBox, Table.get_set_ne _ _ hne]
    exact recover_left hx hne
  · exact (recover_moved.trans enterForeign_moved).scanEnded_uncounted recover_current

/-- Settles O54: the named bag is taken, and the command's answer shows it. -/
theorem handOutTakesTheNamedBag : Obligations.HandOutTakesTheNamedBag := by
  unfold Obligations.HandOutTakesTheNamedBag
  intro c l dest d ms n g tag r s hdoor honly hr htag hblocked hmanifest hlong
  have hgone : goneAt s c (.command l (.handOut dest [n]) d) [] = [(n, dest.outState)] := by
    rw [goneAt, State.box, honly, departures_of_named hr htag hmanifest]
  have hrecover : recoverTags c (looseTags s (s.box c).occupants [])
      ((goneAt s c (.command l (.handOut dest [n]) d) []).foldl (depart c) s) =
        (depart c s (n, dest.outState), [], []) := by
    rw [hgone]
    rfl
  obtain ⟨u, hu⟩ : ∃ u, u = depart c s (n, dest.outState) := ⟨_, rfl⟩
  rw [← hu] at hrecover
  have hueq := hu.trans depart_outState
  have hmoved : ScanMoved s u := ⟨_, _, _, _, _, hueq⟩
  have hafter : RecordAt (enterForeign c [] u) n (r.out dest.outState) := by
    rw [enterForeign_nil, hueq]
    exact RecordAt.modify (s := s) (f := Record.out dest.outState) (fun _ => rfl) hr
  have hfinish := finishScan_of_scanning (tags := []) hdoor
  rw [show scannedTags [] = [] from rfl, reconcile_eq hrecover, hgone, State.box, honly,
    handOut_results hr htag hafter] at hfinish
  refine ⟨_, exec_scanDone, ?_⟩
  rw [hfinish]
  dsimp only
  refine ⟨?_, ?_, fun i hi => ?_, ?_, ?_, ?_, ?_⟩
  · refine scanEnded_recordAt hafter fun src => ?_
    rw [enterForeign_nil, hueq]
    exact hblocked src
  · rw [scanEnded_box, enterForeign_nil, modifyBox, Table.get_set_self, hueq, leaveBox_box_of_only honly]
  · rw [scanEnded_box_ne hi, enterForeign_nil, modifyBox, Table.get_set_ne _ _ hi, hueq]
    exact Table.get_set_ne _ _ hi
  · have hlink : (enterForeign c [] u).links = s.links := by
      rw [enterForeign_nil, hueq]
      rfl
    rw [scanEnded_link (by rw [hlink]; exact hlong), hlink]
    rfl
  · rw [scanEnded_current, enterForeign_nil, hueq]
    rfl
  · rintro rfl
    rw [scanEnded_manifest, enterForeign_nil, hu]
    rfl
  · exact (hmoved.trans enterForeign_moved).scanEnded

end

section
-- One theorem after another: elaborated side by side, the whole text asks for more threads than the check has memory for.
set_option Elab.async false
/-! A scan that no hand-out asked for: the bags found absent (R138 to R142). -/

namespace Sys2Proof.Machine

variable {s t u : State} {n g : Nat} {c i : CompartmentId} {op : DoorOp} {ms : Nat} {tags occupants ns : List Nat}
  {r : Record}

/-- R1: with distinct numbers, a record is the one that its number finds. -/
theorem recordAt_of_mem (hnodup : (s.register.records.map Record.number).Nodup) (hr : r ∈ s.register.records) :
    RecordAt s r.number r := by
  cases hfind : s.register.records.find? fun x => x.number == r.number with
  | none => exact absurd (beq_self_eq_true r.number) (List.find?_eq_none.mp hfind r hr)
  | some x =>
    have hx : x.number = r.number := beq_iff_eq.mp (List.find?_some (p := fun x : Record => x.number == r.number) hfind)
    rw [RecordAt, hfind, List.inj_on_of_nodup_map hnodup (List.mem_of_find?_eq_some hfind) hr hx]

/-! ## Which bags left -/

/-- R138: a record whose tag the scan did not read. -/
def tagAbsent (tags : List Nat) (r : Record) : Bool := r.tag.any fun g => !tags.contains g

theorem tagAbsent_iff : tagAbsent tags r = true ↔ ∃ g, r.tag = some g ∧ g ∉ tags := by
  unfold tagAbsent
  cases r.tag with
  | none => exact iff_of_false Bool.false_ne_true fun ⟨g, hg, _⟩ => by cases hg
  | some g => simp

/-- R138: the numbers of the bags that a scan finds absent. -/
def absentNumbers (s : State) (tags occupants : List Nat) : List Nat :=
  occupants.filter fun n => (s.find n).any (tagAbsent tags)

theorem DoorOp.named_of_not_handOut (h : ∀ dest ns l d, op ≠ .command l (.handOut dest ns) d) :
    op.named = [] ∧ op.toCarrier = false := by
  cases op with
  | unattended => exact ⟨rfl, rfl⟩
  | command l work d =>
    cases work with
    | handOut dest ns => exact absurd rfl (h dest ns l d)
    | openDoor => exact ⟨rfl, rfl⟩
    | inventory => exact ⟨rfl, rfl⟩

theorem fate_of_not_handOut (h : op.named = [] ∧ op.toCarrier = false) :
    fate s op tags r = if tagAbsent tags r then some .missing else none := by
  unfold fate tagAbsent
  cases r.tag with
  | none => simp [h.1]
  | some g =>
    cases hin : tags.contains g <;> simp_all

theorem departures_of_not_handOut (h : op.named = [] ∧ op.toCarrier = false) :
    departures s op tags occupants = (absentNumbers s tags occupants).map fun n => (n, .missing) := by
  have hone : ∀ n, (((s.find n).bind (fate s op tags)).map fun st => (n, st)) =
      if (s.find n).any (tagAbsent tags) then some (n, RecordState.missing) else none := fun n => by
    cases s.find n with
    | none => rfl
    | some r =>
      rw [Option.bind_some, fate_of_not_handOut h, Option.any_some]
      split <;> rfl
  simp only [departures, hone, absentNumbers, ← List.filterMap_eq_filter, List.map_filterMap]
  refine List.filterMap_congr fun n _ => ?_
  simp only [Option.guard]
  split <;> rfl

theorem exists_of_mem_absentNumbers (h : n ∈ absentNumbers s tags occupants) :
    ∃ r ∈ s.register.records, r.number = n := by
  have hany := (List.mem_filter.mp h).2
  cases hfind : s.find n with
  | none =>
    rw [hfind] at hany
    cases hany
  | some r =>
    have hr : RecordAt s n r := hfind
    exact ⟨r, hr.mem, hr.number⟩

/-- R138: the record of a bag found absent. -/
theorem mem_absentNumbers (hnodup : (s.register.records.map Record.number).Nodup) (hr : r ∈ s.register.records) :
    r.number ∈ absentNumbers s tags occupants ↔ r.number ∈ occupants ∧ ∃ g, r.tag = some g ∧ g ∉ tags := by
  have hfind : s.find r.number = some r := recordAt_of_mem hnodup hr
  rw [absentNumbers, List.mem_filter, hfind, Option.any_some, tagAbsent_iff]

/-! ## What their leaving does -/

/-- The bags of a list, found absent one after another. -/
def leaveMissing (c : CompartmentId) (ns : List Nat) (s : State) : State :=
  ns.foldl (fun s n => depart c s (n, .missing)) s

theorem depart_missing_eq :
    depart c s (n, .missing) =
      raise .missing (dropEntry n (modifyRecord n (Record.out .missing) (leaveBox c n s))) := rfl

theorem depart_missing_register :
    (depart c s (n, .missing)).register = (modifyRecord n (Record.out .missing) s).register := by
  rw [depart_missing_eq, raise, raiseTimes_register, dropEntry_register]
  rfl

theorem depart_missing_cabinet : (depart c s (n, .missing)).cabinet = (leaveBox c n s).cabinet := by
  rw [depart_missing_eq, raise, raiseTimes_cabinet, dropEntry_cabinet]
  rfl

theorem depart_missing_moved : ScanMoved s (depart c s (n, .missing)) := by
  rw [depart_missing_eq, raise, raiseTimes_eq, dropEntry_eq]
  exact ⟨_, _, _, _, _, rfl⟩

theorem leaveMissing_cons : leaveMissing c (n :: ns) s = leaveMissing c ns (depart c s (n, .missing)) := rfl

theorem leaveMissing_register :
    (leaveMissing c ns s).register =
      { s.register with
        records := s.register.records.map fun r => if r.number ∈ ns then r.out .missing else r } := by
  have hfold : ∀ (ns : List Nat) (s t : State), s.register = t.register →
      (leaveMissing c ns s).register = (ns.foldl (fun s n => modifyRecord n (Record.out .missing) s) t).register := by
    intro ns
    induction ns with
    | nil => exact fun s t h => h
    | cons n ns ih =>
      intro s t h
      rw [leaveMissing_cons, List.foldl_cons]
      refine ih _ _ ?_
      rw [depart_missing_register, modifyRecord, modifyRecord, h]
  rw [hfold ns s s rfl, foldl_modifyRecord (f := Record.out .missing) (fun _ => rfl) fun _ => rfl]

theorem leaveMissing_moved : ScanMoved s (leaveMissing c ns s) := by
  induction ns generalizing s with
  | nil => exact ⟨_, _, _, _, _, rfl⟩
  | cons n ns ih => exact depart_missing_moved.trans ih

theorem leaveMissing_box_ne (h : i ≠ c) :
    (leaveMissing c ns s).cabinet.compartments.get i = s.cabinet.compartments.get i := by
  induction ns generalizing s with
  | nil => rfl
  | cons n ns ih =>
    rw [leaveMissing_cons, ih, depart_missing_cabinet]
    exact Table.get_set_ne _ _ h

theorem mem_leaveMissing_occupants :
    n ∈ ((leaveMissing c ns s).cabinet.compartments.get c).occupants ↔
      n ∈ (s.cabinet.compartments.get c).occupants ∧ n ∉ ns := by
  induction ns generalizing s with
  | nil => simp [leaveMissing]
  | cons m ns ih =>
    have hleft : n ∈ ((leaveBox c m s).cabinet.compartments.get c).occupants ↔
        n ∈ (s.cabinet.compartments.get c).occupants ∧ n ≠ m := by
      simp [leaveBox, modifyBox, Compartment.withOccupants]
    rw [leaveMissing_cons, ih, depart_missing_cabinet, hleft, List.mem_cons, not_or, and_assoc]

/-! ## What the other tags are -/

theorem recoverable_eq_none
    (h : ∀ r ∈ s.register.records, r.tag = some g → r.state.isTerminal = true) : recoverable s c g = none := by
  have hsought : soughtRecord s g = none := List.find?_eq_none.mpr fun r hr => by
    by_cases htag : r.tag = some g
    · simp [h r hr htag]
    · simp [htag]
  rw [recoverable, hsought]
  rfl

theorem looseTags_eq (hnodup : (s.register.records.map Record.number).Nodup) :
    looseTags s occupants tags =
      tags.filter fun g => decide (∀ r ∈ s.register.records, r.tag = some g → r.number ∉ occupants) := by
  refine List.filter_congr fun g _ => ?_
  rw [Bool.eq_iff_iff, decide_eq_true_iff, Bool.not_eq_true', List.any_eq_false]
  constructor
  · intro h r hr htag hmem
    have hfind : s.find r.number = some r := recordAt_of_mem hnodup hr
    have hno := h r.number hmem
    rw [hfind, Option.any_some, htag, beq_self_eq_true] at hno
    exact hno rfl
  · intro h n hn hany
    cases hfind : s.find n with
    | none =>
      rw [hfind] at hany
      cases hany
    | some r =>
      rw [hfind, Option.any_some, beq_iff_eq] at hany
      have hat : RecordAt s n r := hfind
      exact h r hat.mem hany (hat.number.symm ▸ hn)

theorem enterForeign_cabinet {foreign : List Nat} :
    (enterForeign c foreign u).cabinet =
      (modifyBox c (fun b =>
        { b with foreign := foreign.take 4, furtherForeign := min 255 (foreign.length - 4) }) u).cabinet := by
  rw [enterForeign, raiseTimes_cabinet]

theorem enterForeign_register {foreign : List Nat} : (enterForeign c foreign u).register = u.register := by
  rw [enterForeign, raiseTimes_register]
  rfl

end Sys2Proof.Machine

open Sys2Proof Sys2Proof.Machine

/-- Settles O52: the bags absent from the scan are missing, and the tags left over are foreign. -/
theorem scanFindsAbsentBagsMissing : Obligations.ScanFindsAbsentBagsMissing := by
  unfold Obligations.ScanFindsAbsentBagsMissing
  intro c op ms tags s hnodup hdoor hop htags htagsNodup occupants hknown lost loose atStation
  have hscanned : scannedTags tags = tags := scannedTags_eq (fun g hg => isTag_iff.mpr (htags g hg)) htagsNodup
  obtain ⟨ns, hns⟩ : ∃ ns, ns = absentNumbers s tags occupants := ⟨_, rfl⟩
  have hlost : ∀ r ∈ s.register.records, r.number ∈ ns ↔ lost r := fun r hr => by
    rw [hns]
    exact mem_absentNumbers hnodup hr
  have hgone : (goneAt s c op tags).foldl (depart c) s = leaveMissing c ns s := by
    rw [goneAt, departures_of_not_handOut (DoorOp.named_of_not_handOut hop), List.foldl_map, leaveMissing, hns]
    rfl
  have hloose : looseTags s (s.box c).occupants tags = loose := looseTags_eq hnodup
  have hrecover : recoverTags c loose (leaveMissing c ns s) = (leaveMissing c ns s, [], loose) := by
    refine recoverTags_of_none fun g hg => recoverable_eq_none fun x hx htag => ?_
    rw [leaveMissing_register] at hx
    obtain ⟨r, hr, rfl⟩ := List.mem_map.mp hx
    obtain ⟨hgtags, hfree⟩ := List.mem_filter.mp hg
    have hrtag : r.tag = some g := by
      by_cases hin : r.number ∈ ns
      · rw [if_pos hin] at htag
        exact htag
      · rw [if_neg hin] at htag
        exact htag
    have hout : r.number ∉ occupants := of_decide_eq_true hfree r hr hrtag
    rw [if_neg fun hin => hout ((hlost r hr).mp hin).1]
    exact RecordState.isTerminal_iff.mpr ((hknown r hr g hgtags hrtag).resolve_left hout)
  have hfinish := finishScan_of_scanning (tags := tags) hdoor
  rw [← hloose, ← hgone] at hrecover
  rw [hscanned, reconcile_eq hrecover, hgone, hloose] at hfinish
  refine ⟨_, exec_scanDone, ?_⟩
  rw [hfinish]
  dsimp only
  obtain ⟨u, hu⟩ : ∃ u, u = enterForeign c loose (leaveMissing c ns s) := ⟨_, rfl⟩
  have hmoved : ScanMoved s u := hu ▸ leaveMissing_moved.trans enterForeign_moved
  have hregister : u.register = { s.register with
      records := s.register.records.map fun r => if r.number ∈ ns then r.out .missing else r } := by
    rw [hu, enterForeign_register, leaveMissing_register]
  have hbox : u.cabinet.compartments.get c =
      { (leaveMissing c ns s).cabinet.compartments.get c with
        foreign := loose.take 4, furtherForeign := min 255 (loose.length - 4) } := by
    rw [hu, enterForeign_cabinet, modifyBox, Table.get_set_self]
  rw [← hu]
  refine ⟨fun r hr hstation hgone' => ?_, fun r hr hstation hstays => ?_, fun n => ?_, ?_, ?_, ?_,
    fun i hi => ?_, ?_, ?_⟩
  · refine scanEnded_mem ?_ fun src => hmoved.station ▸ fun h => hstation ⟨src, h⟩
    rw [hregister]
    exact List.mem_map.mpr ⟨r, hr, if_pos ((hlost r hr).mpr hgone')⟩
  · refine scanEnded_mem ?_ fun src => hmoved.station ▸ fun h => hstation ⟨src, h⟩
    rw [hregister]
    exact List.mem_map.mpr ⟨r, hr, if_neg fun hin => hstays ((hlost r hr).mp hin)⟩
  · rw [scanEnded_occupants, hbox]
    refine mem_leaveMissing_occupants.trans (and_congr_right fun hn => ?_)
    constructor
    · rintro hstays r hr rfl hl
      exact hstays ((hlost r hr).mpr hl)
    · intro hstays hin
      obtain ⟨r, hr, rfl⟩ := exists_of_mem_absentNumbers (hns ▸ hin)
      exact hstays r hr rfl ((hlost r hr).mp hin)
  · rw [scanEnded_box]
  · rw [scanEnded_box, hbox]
  · rw [scanEnded_box, hbox]
  · rw [scanEnded_box_ne hi, hu, enterForeign_cabinet, modifyBox, Table.get_set_ne _ _ hi, leaveMissing_box_ne hi]
  · rw [scanEnded_current, hregister]
  · exact hmoved.scanEnded_uncounted (by rw [hregister])

end

section
-- One theorem after another: elaborated side by side, the whole text asks for more threads than the check has memory for.
set_option Elab.async false
/-! The store cleared by INITIALISE STORE (R170, R171). -/

namespace Sys2Proof.Machine

variable {s : State} {tag ms : Nat}

/-! ## The clearing starts -/

/-- R170: no bag is on record but in an end state, and no compartment holds one. -/
def NoBagHeld (s : State) : Prop :=
  (∀ r ∈ s.register.records, r.state = .counted ∨ r.state = .dispatched ∨ r.state = .void) ∧
    ∀ c : CompartmentId, (s.cabinet.compartments.get c).occupants = []

theorem holdsBags_eq_false_iff : holdsBags s = false ↔ NoBagHeld s := by
  rw [holdsBags, Bool.or_eq_false_iff, List.any_eq_false, List.any_eq_false]
  refine and_congr (forall₂_congr fun r _ => ?_) ⟨fun h c => ?_, fun h b hb => ?_⟩
  · rw [Bool.not_eq_true', Bool.not_eq_false, RecordState.isTerminal_iff]
  · have hc := h _ (s.cabinet.compartments.get_mem c)
    rw [Bool.not_eq_true', Bool.not_eq_false] at hc
    exact List.isEmpty_iff.mp hc
  · obtain ⟨c, rfl⟩ := Table.exists_get_of_mem hb
    rw [h c]
    exact Bool.false_ne_true

theorem ownInitialiseStore_of_bags (hvalid : s.store.valid = true) (h : ¬ NoBagHeld s) :
    ownInitialiseStore s = declined .wrongState s := by
  have hholds : holdsBags s = true := by
    rw [← Bool.not_eq_false, holdsBags_eq_false_iff]
    exact h
  rw [ownInitialiseStore, hvalid, hholds]
  rfl

theorem ownInitialiseStore_starts (h : s.store.valid = false ∨ NoBagHeld s) :
    ownInitialiseStore s = .started (startClearing s) := by
  have hand : (s.store.valid && holdsBags s) = false := by
    rw [Bool.and_eq_false_iff]
    exact h.imp_right holdsBags_eq_false_iff.mpr
  rw [ownInitialiseStore, hand]
  rfl

/-! ## The clearing ends -/

theorem exec_initialiseStoreComplete : exec .initialiseStoreComplete s = .next (endClearing s) := rfl

theorem endClearing_of_none (h : s.store.clearing = none) : endClearing s = s := by
  rw [endClearing, h]

theorem endClearing_of_some (h : s.store.clearing = some ms) :
    endClearing s = endLong 0 .ok [] (raise .clockInvalid (cleared s)) := by
  rw [endClearing, h, withLowMarks_cleared]

theorem raise_cleared_long : ((raise .clockInvalid (cleared s)).links.get 0).long = (s.links.get 0).long := by
  rw [raise_get]
  rfl

end Sys2Proof.Machine

open Sys2Proof Sys2Proof.Machine

/-- Settles O25: the store clears when it holds no bag, and stands at its first values when it is done. -/
theorem initialiseStoreClearsTheStore : Obligations.InitialiseStoreClearsTheStore := by
  unfold Obligations.InitialiseStoreClearsTheStore
  refine fun tag s => ⟨fun hl hlong => ⟨fun hvalid hbags => ?_, fun hfree => ?_⟩, fun hnone => ?_, fun ms hsome => ?_⟩
  · exact congrArg _ (takePlain_done (c := .initialiseStore) hl rfl (fun _ => hlong) Command.noConfusion
      (ownInitialiseStore_of_bags (s := received 0 s) hvalid hbags))
  · refine congrArg _ ((takePlain_started (c := .initialiseStore) (t := startClearing s) hl rfl hlong
      (ownInitialiseStore_starts (s := received 0 s) hfree)).trans ?_)
    have hchutes : Chute.storeClosed = fun k : Chute =>
        match k.state with
        | .idle => { k with hold := k.hold.map fun _ => (.closed, 4000) }
        | .session _ _ => { k with state := .idle, hold := some (.closed, 4000) }
        | .drum _ _ _ => { k with state := .idle, hold := some (.closed, 4000) }
        | .fault => k := by
      funext ⟨st, _, _, _⟩
      cases st <;> rfl
    rw [startClearing, hchutes]
    rfl
  · rw [exec_initialiseStoreComplete, endClearing_of_none hnone]
  · intro values raised k
    have hend : exec .initialiseStoreComplete s = .next (endLong 0 .ok [] raised) :=
      congrArg _ (endClearing_of_some hsome)
    have hlong : k.long = (s.links.get 0).long := raise_cleared_long
    refine ⟨fun c t hdeliver => ?_, fun c t hdiscard => ?_, fun hnone => ?_⟩
    · exact hend.trans (congrArg _ (modifyLink_of_eq (Link.longEnded_deliver (hlong.trans hdeliver))))
    · exact hend.trans (congrArg _ (modifyLink_of_eq (Link.longEnded_discard (hlong.trans hdiscard))))
    · exact hend.trans (congrArg _ (modifyLink_of_self (by
        change k.longEnded .ok [] = k
        rw [Link.longEnded, hlong, hnone])))

end

section
-- One theorem after another: elaborated side by side, the whole text asks for more threads than the check has memory for.
set_option Elab.async false
/-! The tick: what an empty queue leaves to do (R3, R15). -/

namespace Sys2Proof.Machine

variable {s : State} {w : Walk} {r : Record}

theorem step_of_empty (h : s.pending = []) : step s = .next (walkOn (timersOn s)) := by
  rw [step, h]
  rfl

/-! ## The purge walk's next record -/

theorem walkOn_of_none (h : s.register.walk = none) : walkOn s = s := by
  rw [walkOn, h]

theorem unvisited_eq_nil (h : ∀ r ∈ s.register.records, r.number ≤ w.visited) : unvisited w s = [] :=
  List.filter_eq_nil_iff.mpr fun r hr => by
    rw [decide_eq_true_iff]
    exact Nat.not_lt.mpr (h r hr)

theorem walkOn_of_past (hw : s.register.walk = some w) (h : ∀ r ∈ s.register.records, r.number ≤ w.visited) :
    walkOn s = s := by
  simp only [walkOn, hw, unvisited_eq_nil h]

/-- R15: in number order, the walk's next record is the least that it has not visited. -/
theorem unvisited_eq_cons (horder : InNumberOrder s.register) (hr : r ∈ s.register.records)
    (hnext : w.visited < r.number)
    (hleast : ∀ x ∈ s.register.records, w.visited < x.number → r.number ≤ x.number) :
    ∃ rest, unvisited w s = r :: rest := by
  have hmem : r ∈ unvisited w s := List.mem_filter.mpr ⟨hr, decide_eq_true hnext⟩
  have hsorted : (unvisited w s).Pairwise fun x y => x.number < y.number := (List.pairwise_map.mp horder).filter _
  cases hlist : unvisited w s with
  | nil =>
    rw [hlist] at hmem
    cases hmem
  | cons x rest =>
    rw [hlist] at hmem hsorted
    have hx : x ∈ unvisited w s := hlist ▸ List.mem_cons_self
    obtain ⟨hxin, hxnext⟩ := List.mem_filter.mp hx
    have hle := hleast x hxin (of_decide_eq_true hxnext)
    rcases List.mem_cons.mp hmem with rfl | hrest
    · exact ⟨rest, rfl⟩
    · exact absurd (List.rel_of_pairwise_cons hsorted hrest) (Nat.not_lt.mpr hle)

theorem walkOn_of_next {rest : List Record} (hw : s.register.walk = some w) (h : unvisited w s = r :: rest) :
    walkOn s =
      { visitRecord w.date s r with
        register := { (visitRecord w.date s r).register with walk := some ⟨w.date, r.number⟩ } } := by
  simp only [walkOn, hw, h]

theorem purged_iff {date : Nat} :
    r.purged date = true ↔ (r.state = .counted ∨ r.state = .dispatched ∨ r.state = .void) ∧ r.arrivalDate ≤ date := by
  rw [Record.purged, Bool.and_eq_true, RecordState.isTerminal_iff, decide_eq_true_iff]

theorem removeRecord_eq_filter :
    removeRecord s r =
      { s with
        register := { s.register with records := s.register.records.filter fun x => x.number != r.number }
        advices := { s.advices with entries := s.advices.entries.filter fun a => r.advice != some a.index } } := by
  have hrecords : (fun x : Record => !(r.number == x.number)) = fun x => x.number != r.number :=
    funext fun x => by rw [Bool.beq_comm]; rfl
  rw [removeRecord_eq, hrecords]
  rfl

end Sys2Proof.Machine

open Sys2Proof Sys2Proof.Machine

/-- Settles O2: every timer loses a millisecond, and the walk visits its next record. -/
theorem emptyQueueIsOneTick : Obligations.EmptyQueueIsOneTick := by
  unfold Obligations.EmptyQueueIsOneTick
  intro s hempty timed
  have htimed : timersOn s = timed := by
    rw [timersOn]
    congr 1
    · refine congrArg (s.chutes.map ·) (funext fun ⟨st, _, _, _⟩ => ?_)
      cases st <;> rfl
    · refine congrArg (fun x => ({ s.station with state := x } : Station)) ?_
      cases s.station.state with
      | measuring n src m =>
        obtain ⟨settle, _, _, reads⟩ := m
        cases settle <;> cases reads <;> rfl
      | _ => rfl
    · refine congrArg (fun x => ({ s.cabinet with compartments := s.cabinet.compartments.map x } : Cabinet))
        (funext fun b => ?_)
      refine congrArg (fun x => ({ b with door := x } : Compartment)) ?_
      cases b.door <;> rfl
    · refine congrArg (fun x => ({ s.claims with resources := s.claims.resources.map x } : Claims)) (funext fun h => ?_)
      cases h <;> rfl
    · refine congrArg (s.links.map ·) (funext fun k => ?_)
      refine congrArg (fun x => ({ k with program := k.program.map x } : Link)) (funext fun p => ?_)
      refine congrArg (fun x => ({ p with cadence := x } : Program)) ?_
      cases p.cadence <;> rfl
  have hstep : step s = .next (walkOn timed) := by rw [step_of_empty hempty, htimed]
  refine ⟨fun hnone => ?_, fun w hw horder => ⟨fun hpast => ?_, fun r hr hnext hleast => ?_⟩⟩
  · exact hstep.trans (congrArg _ (walkOn_of_none (s := timed) hnone))
  · exact hstep.trans (congrArg _ (walkOn_of_past (s := timed) hw hpast))
  · obtain ⟨rest, hrest⟩ := unvisited_eq_cons horder hr hnext hleast
    have hwalk := hstep.trans (congrArg _ (walkOn_of_next (s := timed) hw hrest))
    intro removed
    refine ⟨fun hkept => ?_, fun hremoved => ?_⟩
    · rw [visitRecord, if_neg (mt purged_iff.mp hkept)] at hwalk
      exact hwalk
    · rw [visitRecord, if_pos (purged_iff.mpr hremoved), removeRecord_eq_filter] at hwalk
      exact hwalk

end

section
-- One theorem after another: elaborated side by side, the whole text asks for more threads than the check has memory for.
set_option Elab.async false
/-! The station: the grant, the time-outs, and what its holder clears (R32 to R40, R55, R66, R126 to R129). -/

namespace Sys2Proof.Machine

variable {s t : State} {l : LinkId} {tag n ms : Nat} {c : ChuteId} {rest : List Nat} {r : Record} {src : Source}

/-! ## The arbiter -/

theorem throatReady_iff :
    throatReady s c = true ↔ (s.chutes.get c).state ≠ .fault ∧ (s.chutes.get c).queue ≠ [] := by
  rw [throatReady, State.chute, Bool.and_eq_true, bne_iff_ne, Bool.not_eq_true', List.isEmpty_eq_false_iff]

theorem arbitrate_of_chosen (hidle : s.station.state = .idle) (h : chosenRequester s = some src) :
    arbitrate s = grant src s := by
  rw [arbitrate, if_pos hidle, h]

theorem chosenRequester_of_service (h : s.station.service = n :: rest) : chosenRequester s = some .service := by
  rw [chosenRequester, h]
  rfl

theorem chosenRequester_of_no_service (h : s.station.service = []) :
    chosenRequester s =
      ((throatOrder s.store.params.priority s.station.lastServed).find? (throatReady s)).map .throat := by
  rw [chosenRequester, h]
  rfl

theorem throatOrder_fixed {last : ChuteId} : throatOrder .fixed last = (List.finRange 4).map id := rfl

theorem throatOrder_rotating {last : ChuteId} :
    throatOrder .rotating last = (List.finRange 4).map fun j => last + 1 + j := by
  revert last
  decide

/-- R33: the first throat that is ready, in an order of the four. -/
theorem find_order {order : Fin 4 → ChuteId} {k : Fin 4} (hk : throatReady s (order k) = true)
    (hbefore : ∀ j, j < k → ¬ throatReady s (order j) = true) :
    ((List.finRange 4).map order).find? (throatReady s) = some (order k) := by
  rw [List.find?_map, (find_finRange_eq_some (p := throatReady s ∘ order)).mpr ⟨hk, hbefore⟩]
  rfl

theorem grant_throat (hqueue : (s.chutes.get c).queue = n :: rest) :
    grant (.throat c) s =
      modifyChute c (fun k => { k with queue := rest })
        (modifyRecord n (fun r => { r with state := .checking })
          { s with
            station :=
              { s.station with
                lastServed := c, state := .loading n (.throat c) (s.store.params.loadTimeout * 1000) } }) := by
  have hpop : modifyChute c (fun k => { k with queue := k.queue.tail }) s =
      modifyChute c (fun k => { k with queue := rest }) s := by
    rw [modifyChute, modifyChute, hqueue]
    rfl
  rw [grant_of_queue (src := .throat c) hqueue]
  change setStation _ (modifyRecord n _ { modifyChute c (fun k => { k with queue := k.queue.tail }) s with
    station := { s.station with lastServed := c } }) = _
  rw [hpop]
  rfl

theorem grant_service (hservice : s.station.service = n :: rest) :
    grant .service s =
      modifyRecord n (fun r => { r with state := .checking })
        { s with
          station :=
            { s.station with
              service := rest, state := .loading n .service (s.store.params.loadTimeout * 1000) } } := by
  rw [grant_of_queue (src := .service) hservice, popQueue, hservice]
  rfl

/-- R33: the throat that the arbiter serves, with no bag on the service list. -/
theorem arbitrate_throat {order : Fin 4 → ChuteId} {k : Fin 4} (hidle : s.station.state = .idle)
    (hservice : s.station.service = [])
    (horder : throatOrder s.store.params.priority s.station.lastServed = (List.finRange 4).map order)
    (hbefore : ∀ j, j < k → ¬ ((s.chutes.get (order j)).state ≠ .fault ∧ (s.chutes.get (order j)).queue ≠ []))
    (hup : (s.chutes.get (order k)).state ≠ .fault) (hqueue : (s.chutes.get (order k)).queue = n :: rest) :
    arbitrate s = grant (.throat (order k)) s := by
  have hready : throatReady s (order k) = true := throatReady_iff.mpr ⟨hup, hqueue ▸ List.cons_ne_nil n rest⟩
  refine arbitrate_of_chosen hidle ?_
  rw [chosenRequester_of_no_service hservice, horder,
    find_order hready fun j hj => mt throatReady_iff.mp (hbefore j hj)]
  rfl

theorem chosenRequester_of_none_ready (hservice : s.station.service = [])
    (h : ∀ c : ChuteId, ¬ ((s.chutes.get c).state ≠ .fault ∧ (s.chutes.get c).queue ≠ [])) :
    chosenRequester s = none := by
  rw [chosenRequester_of_no_service hservice, List.find?_eq_none.mpr fun c _ => mt throatReady_iff.mp (h c)]
  rfl

theorem grant_received {i : LinkId} : grant src (received i s) = received i (grant src s) := by
  have hqueue : queueOf (received i s) src = queueOf s src := by cases src <;> rfl
  cases h : queueOf s src with
  | nil => rw [grant, hqueue, h, grant, h]
  | cons n rest =>
    rw [grant_of_queue (hqueue.trans h), grant_of_queue h]
    cases src <;> rfl

theorem arbitrate_received {i : LinkId} : arbitrate (received i s) = received i (arbitrate s) := by
  by_cases hidle : s.station.state = .idle
  · cases h : chosenRequester s with
    | none => rw [arbitrate_of_none h, arbitrate_of_none (s := received i s) h]
    | some src =>
      rw [arbitrate_of_chosen hidle h, arbitrate_of_chosen (s := received i s) hidle h, grant_received]
  · rw [arbitrate_of_busy hidle, arbitrate_of_busy (s := received i s) hidle]

/-! ## The time-outs -/

theorem exec_loadTimeout : exec .loadTimeout s = .next (failLoad s) := rfl

theorem exec_transitTimeout : exec .transitTimeout s = .next (failTransit s) := rfl

theorem failLoad_of_loading (h : s.station.state = .loading n src ms) :
    failLoad s =
      arbitrate (faultSource src (raise .stranded (modifyRecord n Record.stranded (setStation .idle s)))) := by
  rw [failLoad, h]

theorem failTransit_of_placing {box : CompartmentId} (h : s.station.state = .placing n src box ms) :
    failTransit s =
      testLowMarks (raise .stranded (raise .stationFault (modifyRecord n Record.stranded (setStation .fault s)))) := by
  rw [failTransit, h]

theorem faultSource_of_not_fault (h : (s.chutes.get c).state ≠ .fault) :
    faultSource (.throat c) s =
      raise .chuteFault
        (modifyChute c (fun k => { k with state := .fault, hold := none })
          (if (s.chutes.get c).inDrum then returnReservation s else s)) :=
  faultChute_of_not_fault h

theorem faultSource_of_fault (h : (s.chutes.get c).state = .fault) : faultSource (.throat c) s = s :=
  faultChute_of_fault h

/-! ## RE-ENTER and CLEAR STATION -/

theorem ownReEnter_of_record (hn : n ≠ 0) (hvalid : s.store.valid = true) (hheld : holds s l stationResource = true)
    (hr : RecordAt s n r) (hstate : r.state = .stranded ∨ r.state = .missing ∨ r.state = .outTeller)
    (hroom : s.station.service.length < 4) :
    ownReEnter l n s =
      .done .ok []
        (arbitrate
          (modifyRecord n (fun r => { r with state := .waiting })
            { s with station := { s.station with service := s.station.service ++ [n] } })) := by
  have hfind : s.find n = some r := hr
  have hout : ¬ (r.state ≠ .stranded ∧ r.state ≠ .missing ∧ r.state ≠ .outTeller) := by tauto
  have hfull : ¬ (Config.serviceSize ≤ s.station.service.length) := Nat.not_le.mpr hroom
  have hclaimed : ¬ ((!holds s l stationResource) = true) := by
    rw [hheld]
    exact Bool.false_ne_true
  simp only [ownReEnter, if_neg hn, if_neg (not_valid hvalid), if_neg hclaimed, hfind, if_neg hout, if_neg hfull]

theorem ownClearStation_of_held (hvalid : s.store.valid = true) (hheld : holds s l stationResource = true) :
    (∀ src n, s.station.state = .blocked n src →
      ownClearStation l s = .done .ok (copiesOf (strandBlocked n s) [n]) (arbitrate (strandBlocked n s))) ∧
    (s.station.state = .fault → ownClearStation l s = .done .ok [] (arbitrate (setStation .idle s))) := by
  have hclaimed : ¬ ((!holds s l stationResource) = true) := by
    rw [hheld]
    exact Bool.false_ne_true
  refine ⟨fun src n h => ?_, fun h => ?_⟩ <;>
    simp only [ownClearStation, if_neg (not_valid hvalid), if_neg hclaimed, h]

theorem strandBlocked_received {i : LinkId} : strandBlocked n (received i s) = received i (strandBlocked n s) := by
  rw [strandBlocked, strandBlocked, ← raise_received]
  rfl

theorem copiesOf_strandBlocked (hr : RecordAt s n r) : copiesOf (strandBlocked n s) [n] = [.custody r.stranded] := by
  have hat : RecordAt (modifyRecord n Record.stranded (setStation .idle s)) n r.stranded :=
    RecordAt.modify (s := setStation .idle s) (fun _ => rfl) hr
  have hfind : (strandBlocked n s).find n = some r.stranded := by
    rw [strandBlocked, State.find, raise, raiseTimes_register]
    exact hat
  rw [copiesOf, List.filterMap_cons, hfind]
  rfl

end Sys2Proof.Machine

open Sys2Proof Sys2Proof.Machine

/-- Settles O35: the service list goes first, then the throats in the order of the priority mode. -/
theorem arbiterGrantsTheHead : Obligations.ArbiterGrantsTheHead := by
  unfold Obligations.ArbiterGrantsTheHead
  refine fun s => ⟨fun hidle => ⟨fun n rest hservice => ?_, fun hservice hmode k n rest hbefore hup hqueue => ?_,
    fun hservice hmode c n rest hbefore hup hqueue => ?_, fun hservice hnone => ?_⟩,
    fun hbusy => arbitrate_of_busy hbusy⟩
  · rw [arbitrate_of_chosen hidle (chosenRequester_of_service hservice), grant_service hservice]
  · rw [arbitrate_throat (order := fun j => s.station.lastServed + 1 + j) hidle hservice
      (by rw [hmode, throatOrder_rotating]) hbefore hup hqueue, grant_throat hqueue]
  · rw [arbitrate_throat (order := id) hidle hservice (by rw [hmode, throatOrder_fixed]) hbefore hup hqueue]
    exact grant_throat hqueue
  · exact arbitrate_of_none (chosenRequester_of_none_ready hservice hnone)

/-- Settles O37: a time-out strands the bag, and a source's time-out faults its chute. -/
theorem stationTimeoutsStrandTheBag : Obligations.StationTimeoutsStrandTheBag := by
  unfold Obligations.StationTimeoutsStrandTheBag
  refine fun n ms s => ⟨fun h => ?_, fun c h => ⟨fun hdrum => ?_, fun hfault => ?_, fun hup hdrum => ?_⟩,
    fun src c h => ?_⟩
  · rw [exec_loadTimeout, failLoad_of_loading h]
    rfl
  · obtain ⟨d, w, p, hstate⟩ := hdrum
    rw [exec_loadTimeout, failLoad_of_loading h]
    refine congrArg (fun t => Host.Outcome.next (arbitrate t)) ((faultSource_of_not_fault ?_).trans ?_)
    · exact hstate ▸ ChuteState.noConfusion
    · exact congrArg _ (congrArg _ (if_pos (inDrum_of_drum hstate)))
  · rw [exec_loadTimeout, failLoad_of_loading h]
    exact congrArg (fun t => Host.Outcome.next (arbitrate t)) (faultSource_of_fault hfault)
  · rw [exec_loadTimeout, failLoad_of_loading h]
    refine congrArg (fun t => Host.Outcome.next (arbitrate t)) ((faultSource_of_not_fault ?_).trans ?_)
    · exact hup
    exact congrArg _ (congrArg _ (if_neg (by
      rw [Bool.not_eq_true]
      exact inDrum_of_not_drum hdrum)))
  · rw [exec_transitTimeout, failTransit_of_placing h]
    rfl

/-- Settles O39: the holder of the station brings a bag back, and clears what stands in the way. -/
theorem stationHolderReEntersAndClears : Obligations.StationHolderReEntersAndClears := by
  unfold Obligations.StationHolderReEntersAndClears
  intro tag k s hl hvalid hheld
  have hholds : holds (received 1 s) 1 stationResource = true := holds_eq_true.mpr ⟨k, hheld⟩
  refine ⟨fun n r hn hr hstate hroom => ?_, fun hfault => ?_, fun n src r hblocked hr => ?_⟩
  · refine congrArg _ (takePlain_done (c := .reEnter) hl rfl (notLong rfl) Command.noConfusion ?_)
    rw [ownReEnter_of_record (s := received 1 s) hn hvalid hholds hr hstate hroom, ← arbitrate_received]
    rfl
  · refine congrArg _ (takePlain_done (c := .clearStation) hl rfl (notLong rfl) Command.noConfusion ?_)
    rw [(ownClearStation_of_held (s := received 1 s) hvalid hholds).2 hfault, ← arbitrate_received]
    rfl
  · refine congrArg _ (takePlain_done (c := .clearStation) hl rfl (notLong rfl) Command.noConfusion
      (t := arbitrate (strandBlocked n s)) ?_)
    rw [(ownClearStation_of_held (s := received 1 s) hvalid hholds).1 src n hblocked,
      copiesOf_strandBlocked (s := received 1 s) hr, ← arbitrate_received, strandBlocked_received]
    rfl

end

section
-- One theorem after another: elaborated side by side, the whole text asks for more threads than the check has memory for.
set_option Elab.async false
/-! The entry sensors of the compartments (R56 to R65). -/

namespace Sys2Proof.Machine

variable {s t : State} {n ms : Nat} {c target : CompartmentId} {tag : Option Nat} {r : Record} {src : Source}

theorem exec_entryReport : exec (.entryReport c tag) s = .next (judgeEntry c tag (entryBase c s)) := by
  rw [← restartScan_eq]
  rfl

/-! ## No bag in transit -/

theorem judgeEntry_of_not_placing (h : ∀ n src target ms, s.station.state ≠ .placing n src target ms) :
    judgeEntry c tag s = foreignEntry c tag s := by
  unfold judgeEntry
  split
  next n src target ms hplacing => exact absurd hplacing (h n src target ms)
  next => rfl

theorem foreignEntry_some {g : Nat} {b : Compartment} :
    b.foreignEntry (some g) =
      if g ∈ b.foreign then b
      else if b.foreign.length < 4 then { b with foreign := b.foreign ++ [g] }
      else { b with furtherForeign := satInc 255 b.furtherForeign } := by
  simp only [Compartment.foreignEntry, List.contains_iff_mem]

/-! ## A bag in transit -/

/-- R57: a bag joins the compartment whose sensor reports it, and the station is free. -/
def entryJoined (c : CompartmentId) (n : Nat) (h : Compartment → Option Handling) (s : State) : State :=
  modifyBox c
    (fun b =>
      { b with
        occupants := b.occupants ++ [n]
        overfull := decide (capacity b.cls < b.occupants.length + 1)
        handling := h b })
    { s with station := { s.station with state := .idle } }

theorem withOccupants_append {b : Compartment} :
    b.withOccupants (b.occupants ++ [n]) =
      { b with occupants := b.occupants ++ [n], overfull := decide (capacity b.cls < b.occupants.length + 1) } := by
  have hsome : (b.occupants ++ [n]).isEmpty = false := by
    rw [List.isEmpty_eq_false_iff]
    exact List.append_ne_nil_of_right_ne_nil _ (List.cons_ne_nil n [])
  rw [Compartment.withOccupants, hsome, List.length_append]
  rfl

theorem setStation_joinBox : setStation .idle (joinBox c n s) = entryJoined c n Compartment.handling s := by
  rw [joinBox, funext fun b => withOccupants_append]
  rfl

theorem setStation_joinStored :
    setStation .idle (joinStored c r s) =
      entryJoined c r.number (fun b => if b.occupants = [] then r.handling else b.handling) s := by
  simp only [joinStored, withOccupants_append, List.isEmpty_iff]
  rfl

/-- R58: a bag held where it arrived. -/
def entryHeld (n : Nat) (f : Record → Record) (s : State) : State :=
  arbitrate (testLowMarks (raise .heldBag
    (countUp (fun k => { k with held := upTo65535 k.held }) (modifyRecord n f s))))

/-- R58: a bag stored where it arrived. -/
def entryStored (n : Nat) (s : State) : State :=
  arbitrate (testLowMarks
    (countUp (fun k => { k with accepted := upTo65535 k.accepted })
      (modifyRecord n (fun r => { r with state := .stored }) s)))

theorem arriveHeld_eq :
    arriveHeld c r s =
      entryHeld r.number (fun r => { r with state := .held }) (entryJoined c r.number Compartment.handling s) := by
  rw [← setStation_joinBox]
  rfl

theorem misroute_eq :
    misroute c r s =
      entryHeld r.number
        (fun r => { r with state := .held, compartment := some c, reasons := addReason r.reasons .misrouted })
        (entryJoined c r.number Compartment.handling s) := by
  rw [← setStation_joinBox]
  rfl

theorem arriveStored_eq :
    arriveStored c r s =
      bagStored (entryStored r.number
        (entryJoined c r.number (fun b => if b.occupants = [] then r.handling else b.handling) s)) := by
  rw [← setStation_joinStored]
  rfl

theorem judgeEntry_of_placing (h : s.station.state = .placing n src target ms) (hr : RecordAt s n r) :
    judgeEntry c tag s =
      if c = target then (if r.reasons = 0 then arriveStored c r s else arriveHeld c r s) else misroute c r s := by
  have hfind : s.find n = some r := hr
  simp only [judgeEntry, h, hfind]

end Sys2Proof.Machine

open Sys2Proof Sys2Proof.Machine

/-- Settles O40: a bag that arrives is stored, or held with its reasons. -/
theorem arrivalsAreStoredOrHeld : Obligations.ArrivalsAreStoredOrHeld := by
  unfold Obligations.ArrivalsAreStoredOrHeld
  intro n src target c ms tag r s hplacing hr joined held stored
  have hjudge := judgeEntry_of_placing (s := entryBase c s) (c := c) (tag := tag) hplacing hr
  have hn : r.number = n := hr.number
  refine ⟨fun htarget hclear => ?_, fun htarget hreasons => ?_, fun hother => ?_⟩
  · rw [exec_entryReport, hjudge, if_pos htarget, if_pos hclear, arriveStored_eq, hn, bagStored_eq]
    rfl
  · rw [exec_entryReport, hjudge, if_pos htarget, if_neg hreasons, arriveHeld_eq, hn]
    rfl
  · rw [exec_entryReport, hjudge, if_neg hother, misroute_eq, hn]
    rfl

/-- Settles O41: an entry that no transit explains is a foreign bag. -/
theorem foreignEntryIsNoted : Obligations.ForeignEntryIsNoted := by
  unfold Obligations.ForeignEntryIsNoted
  intro c tag s hnone
  rw [exec_entryReport, judgeEntry_of_not_placing (s := entryBase c s) hnone, foreignEntry]
  cases tag with
  | none => rfl
  | some g =>
    exact congrArg (fun f => Host.Outcome.next (raise .foreign (modifyBox c f (entryBase c s))))
      (funext fun _ => foreignEntry_some)

end

section
-- One theorem after another: elaborated side by side, the whole text asks for more threads than the check has memory for.
set_option Elab.async false
/-! The measurements of a bag, its evaluation and the place it is given (R41 to R54). -/

namespace Sys2Proof.Machine

variable {s t u : State} {n w : Nat} {c : CompartmentId} {r e : Record} {src : Source} {m : Measuring}
  {res : ReadResult} {report : ReadReport} {b : Bool}

/-! ## The measurements -/

theorem exec_settleTimerExpiry : exec (.settleTimerExpiry w) s = .next (latchWeight w s) := rfl

theorem exec_tagReadReport : exec (.tagReadReport report) s = .next (endAttempt report s) := rfl

theorem latchWeight_of_running {ms : Nat} (h : s.station.state = .measuring n src m) (hm : m.settle = .running ms) :
    latchWeight w s =
      evaluateIfReady (setStation (.measuring n src { m with settle := .latched (min w 30000) }) s) := by
  simp only [latchWeight, h, hm]
  rfl

theorem endAttempt_of_attempt {ms : Nat} (h : s.station.state = .measuring n src m) (hm : m.reads = .attempt ms) :
    endAttempt report s =
      evaluateIfReady
        (setStation (.measuring n src { m with made := m.made + 1, reads := readsAfter m report }) s) := by
  simp only [endAttempt, h, hm]

theorem readsAfter_tag {g : Nat} (hlo : 1 ≤ g) (hhi : g ≤ 999999999) :
    readsAfter m (.tag g b) = .done (.tag g b) := if_pos (isTag_iff.mpr ⟨hlo, hhi⟩)

theorem evaluateIfReady_setStation_reading {ms : Nat} (h : m.reads = .attempt ms) :
    evaluateIfReady (setStation (.measuring n src m) s) = setStation (.measuring n src m) s :=
  evaluateIfReady_reading rfl h

theorem evaluateIfReady_setStation_settling {ms : Nat} (h : m.settle = .running ms) :
    evaluateIfReady (setStation (.measuring n src m) s) = setStation (.measuring n src m) s :=
  evaluateIfReady_settling rfl h

/-- R43: a read that fails, or reads no tag. -/
def FailedRead (report : ReadReport) : Prop :=
  report = .failure ∨ ∃ g b, (g = 0 ∨ 999999999 < g) ∧ report = .tag g b

theorem readsAfter_fails (h : FailedRead report) :
    readsAfter m report = if m.made + 1 < m.allowed then .attempt 250 else .done .failed := by
  rcases h with rfl | ⟨g, b, hg, rfl⟩
  · rfl
  · refine if_neg fun htag => ?_
    obtain ⟨hlo, hhi⟩ := isTag_iff.mp htag
    omega

/-! ## The place granted -/

/-- R54: the record of a bag sent to a compartment. -/
def Record.routed (c : CompartmentId) (noSpace : Bool) (r : Record) : Record :=
  { r with state := .routing, compartment := some c, reasons := addReasonIf noSpace .noSpace r.reasons }

theorem requestPlace_of_some (hu : RecordAt u n e)
    (ha : allocate u e.accepted (e.kind.getD .note) e.handling = some (c, b)) :
    requestPlace n src u =
      testLowMarks (setStation (.placing n src c (u.store.params.transitTimeout * 1000))
        (modifyRecord n (Record.routed c b) u)) := by
  simp only [requestPlace, placeGranted_of_record hu, ha, Option.map_some]
  rfl

theorem requestPlace_of_none (hu : RecordAt u n e)
    (ha : allocate u e.accepted (e.kind.getD .note) e.handling = none) :
    requestPlace n src u = raise .stationBlocked (setStation (.blocked n src) u) := by
  simp only [requestPlace, placeGranted_of_record hu, ha, Option.map_none]

theorem hasReason_routed {x : Reason} (hx : x ≠ .noSpace) :
    hasReason (e.routed c b).reasons x = hasReason e.reasons x := by
  rw [Record.routed, hasReason_addReasonIf, decide_eq_false hx.symm, Bool.and_false, Bool.or_false]

theorem hasReason_routed_noSpace (h : hasReason e.reasons .noSpace = false) :
    hasReason (e.routed c b).reasons .noSpace = b := by
  rw [Record.routed, hasReason_addReasonIf, h, decide_eq_true rfl, Bool.and_true, Bool.false_or]

theorem clean_iff_accepted (h : hasReason e.reasons .noSpace = false) :
    (∀ x : Reason, x ≠ .noSpace → hasReason e.reasons x = false) ↔ e.accepted = true := by
  rw [accepted_iff]
  refine ⟨fun hall x => ?_, fun hall x _ => hall x⟩
  by_cases hx : x = .noSpace
  · exact hx ▸ h
  · exact hall x hx

theorem placedAs_of_some (hfree : ∀ c, pendingAt u c = 0) (hspace : hasReason e.reasons .noSpace = false)
    (ha : allocate u e.accepted (e.kind.getD .note) e.handling = some (c, b))
    (ht : t.station.state = .placing n src c (u.store.params.transitTimeout * 1000)) :
    PlacedAs u n src e (e.routed c b) t := by
  have hclean : (∀ x : Reason, x ≠ .noSpace → hasReason (e.routed c b).reasons x = false) ↔ e.accepted = true := by
    rw [← clean_iff_accepted hspace]
    exact forall₂_congr fun x hx => by rw [hasReason_routed hx]
  have hreason := hasReason_routed_noSpace (c := c) (b := b) hspace
  have hgranted : t.station.state = .placing n src c (u.store.params.transitTimeout * 1000) ∧
      (e.routed c b).state = .routing ∧ (e.routed c b).compartment = some c := ⟨ht, rfl, rfl⟩
  rcases allocate_eq_some hfree ha with ⟨haccepted, hb, hpass⟩ | ⟨⟨haccepted, hb, hno⟩ | ⟨haccepted, hb⟩, hheld⟩
  · exact .inl ⟨c, hclean.mpr haccepted, hpass, hgranted, hreason.trans hb⟩
  · exact .inr (.inl ⟨c, .inl ⟨⟨hclean.mpr haccepted, hno⟩, hreason.trans hb⟩, hheld, hgranted⟩)
  · have hbad : ¬ e.accepted = true := by
      rw [haccepted]
      exact Bool.false_ne_true
    exact .inr (.inl ⟨c, .inr ⟨mt hclean.mp hbad, hreason.trans hb⟩, hheld, hgranted⟩)

theorem placedAs_of_none (hfree : ∀ c, pendingAt u c = 0) (hspace : hasReason e.reasons .noSpace = false)
    (ha : allocate u e.accepted (e.kind.getD .note) e.handling = none) (ht : t.station.state = .blocked n src) :
    PlacedAs u n src e e t :=
  .inr (.inr ⟨allocate_eq_none hfree ha, hspace, ht, rfl, rfl⟩)

/-! ## The evaluation -/

/-- The evaluation of a record, with the lookup of its tag. -/
def evaluation (s : State) (r : Record) (w : Nat) (res : ReadResult) : Record :=
  r.evaluated s w (tagTests s r res) ((tagTests s r res).advice.bind (adviceAt s))

/-- The state after the evaluation, before a place is asked for. -/
def evaluatedState (s : State) (n : Nat) (r : Record) (w : Nat) (res : ReadResult) : State :=
  modifyRecord n (fun _ => evaluation s r w res) { s with advices := tableAfter s n (tagTests s r res) }

/-- R41 to R54: what the evaluation of the bag at the station leaves. -/
def EvaluatesTo (s : State) (n : Nat) (src : Source) (w : Nat) (res : ReadResult) (r : Record) (t : State) : Prop :=
  ∃ r', RecordAt t n r' ∧ EvaluatedAs s r w res r' t.advices ∧ PlacedAs s n src r r' t ∧
    t.register.records = s.register.records.map (fun x => if x.number = n then r' else x) ∧
    t.cabinet.compartments = s.cabinet.compartments ∧
    (∀ l, t.links.get l = { s.links.get l with notices := (t.links.get l).notices }) ∧
    t = { s with register := { s.register with records := t.register.records }, advices := t.advices,
                 station := { s.station with state := t.station.state }
                 cabinet := { s.cabinet with compartments := t.cabinet.compartments
                                             lowStandard := t.cabinet.lowStandard
                                             lowCoin := t.cabinet.lowCoin }
                 links := t.links }

theorem modifyIn_const_modifyIn {f : Record → Record} (hn : e.number = n) (records : List Record) :
    modifyIn n f (modifyIn n (fun _ => e) records) = records.map fun x => if x.number = n then f e else x := by
  rw [modifyIn, modifyIn, List.map_map]
  refine List.map_congr_left fun x _ => ?_
  by_cases hx : x.number = n
  · simp only [Function.comp, if_pos hx, if_pos hn]
  · simp only [Function.comp, if_neg hx]

theorem evaluatesTo_of_some (hr : RecordAt s n r) (hfree : ∀ c, pendingAt s c = 0)
    (ha : allocate (evaluatedState s n r w res) (evaluation s r w res).accepted
      ((evaluation s r w res).kind.getD .note) (evaluation s r w res).handling = some (c, b)) :
    EvaluatesTo s n src w res r (requestPlace n src (evaluatedState s n r w res)) := by
  have hn : r.number = n := hr.number
  have hspace : hasReason (evaluation s r w res).reasons .noSpace = false := noSpace_evaluated
  have hu : RecordAt (evaluatedState s n r w res) n (evaluation s r w res) :=
    RecordAt.replace (s := { s with advices := tableAfter s n (tagTests s r res) }) hr hn
  have hplaced : RecordAt (modifyRecord n (Record.routed c b) (evaluatedState s n r w res)) n
      ((evaluation s r w res).routed c b) := RecordAt.modify (fun _ => rfl) hu
  rw [requestPlace_of_some hu ha]
  refine ⟨(evaluation s r w res).routed c b, ?_, ?_, ?_, ?_, ?_, fun l => ?_, ?_⟩
  · rw [RecordAt, testLowMarks_register]
    exact hplaced
  · rw [testLowMarks_advices]
    have hevaluated : EvaluatedAs s r w res (evaluation s r w res) (tableAfter s n (tagTests s r res)) :=
      hn ▸ evaluatedAs
    exact hevaluated.placed fun x hx => hasReason_routed (c := c) (b := b) hx
  · have hpass := placedAs_of_some (n := n) (src := src)
      (t := testLowMarks (setStation (.placing n src c (s.store.params.transitTimeout * 1000))
        (modifyRecord n (Record.routed c b) (evaluatedState s n r w res)))) (u := evaluatedState s n r w res)
      hfree hspace ha (by rw [testLowMarks_station]; rfl)
    exact hpass
  · rw [testLowMarks_register]
    exact modifyIn_const_modifyIn (e := evaluation s r w res) (f := Record.routed c b) hn s.register.records
  · rw [testLowMarks_compartments]
    rfl
  · exact testLowMarks_get
  · rw [testLowMarks_eq]
    rfl

theorem evaluatesTo_of_none (hr : RecordAt s n r) (hfree : ∀ c, pendingAt s c = 0)
    (ha : allocate (evaluatedState s n r w res) (evaluation s r w res).accepted
      ((evaluation s r w res).kind.getD .note) (evaluation s r w res).handling = none) :
    EvaluatesTo s n src w res r (requestPlace n src (evaluatedState s n r w res)) := by
  have hn : r.number = n := hr.number
  have hspace : hasReason (evaluation s r w res).reasons .noSpace = false := noSpace_evaluated
  have hu : RecordAt (evaluatedState s n r w res) n (evaluation s r w res) :=
    RecordAt.replace (s := { s with advices := tableAfter s n (tagTests s r res) }) hr hn
  rw [requestPlace_of_none hu ha]
  refine ⟨evaluation s r w res, ?_, ?_, ?_, ?_, ?_, fun l => ?_, ?_⟩
  · exact hu
  · exact hn ▸ evaluatedAs
  · exact placedAs_of_none (u := evaluatedState s n r w res) hfree hspace ha rfl
  · rfl
  · rfl
  · rw [raise_get]
    rfl
  · rfl

theorem evaluatesTo_requestPlace (hr : RecordAt s n r) (hfree : ∀ c, pendingAt s c = 0) :
    EvaluatesTo s n src w res r (requestPlace n src (evaluatedState s n r w res)) := by
  cases ha : allocate (evaluatedState s n r w res) (evaluation s r w res).accepted
      ((evaluation s r w res).kind.getD .note) (evaluation s r w res).handling with
  | none => exact evaluatesTo_of_none hr hfree ha
  | some a => exact evaluatesTo_of_some hr hfree ha

/-- R45: with the weight latched and the reads done, the bag is evaluated. -/
theorem evaluatesTo_measured (hr : RecordAt s n r) (hw : m.settle = .latched w) (hres : m.reads = .done res) :
    EvaluatesTo s n src w res r (evaluateIfReady (setStation (.measuring n src m) s)) := by
  have hfind : (setStation (.measuring n src m) s).find n = some r := hr
  have hready := evaluateIfReady_ready (s := setStation (.measuring n src m) s) rfl hw hres
  rw [hready, assessed_eq hfind]
  have hto := evaluatesTo_requestPlace (s := setStation (.measuring n src m) s) (src := src) (w := w) (res := res) hr
    fun _ => rfl
  exact hto

end Sys2Proof.Machine

open Sys2Proof Sys2Proof.Machine

/-- Settles O38: the weight and the reads are taken one by one, and the last of them evaluates the bag. -/
theorem measurementsLeadToEvaluation : Obligations.MeasurementsLeadToEvaluation := by
  unfold Obligations.MeasurementsLeadToEvaluation
  intro n src m s hstate measured evaluates fails
  have hfails : ∀ i, fails i → ∃ report : ReadReport, FailedRead report ∧ exec i s = .next (endAttempt report s) := by
    rintro i (rfl | rfl | ⟨g, b, hg, rfl⟩)
    · exact ⟨.failure, .inl rfl, rfl⟩
    · exact ⟨.failure, .inl rfl, rfl⟩
    · exact ⟨.tag g b, .inr ⟨g, b, hg, rfl⟩, rfl⟩
  have hevaluates : ∀ i m' w res, m'.settle = .latched w → m'.reads = .done res →
      exec i s = .next (evaluateIfReady (setStation (.measuring n src m') s)) → evaluates i w res := by
    intro i m' w res hw hres hexec r hr
    obtain ⟨r', hto⟩ := evaluatesTo_measured (src := src) hr hw hres
    exact ⟨_, r', hexec, hto⟩
  refine ⟨fun b hreads i hi hmade => ?_, fun a hsettle => ⟨fun b hreads => ⟨fun w => ?_, fun g broken hlo hhi => ?_,
    fun i hi hmade => ?_⟩, fun w res hres => ?_⟩, fun w b hsettle hreads => ⟨fun g broken hlo hhi => ?_,
    fun i hi hmade => ?_⟩⟩
  · obtain ⟨report, hreport, hexec⟩ := hfails i hi
    rw [hexec, endAttempt_of_attempt hstate hreads, readsAfter_fails hreport, if_pos hmade]
    exact congrArg _ (evaluateIfReady_setStation_reading (by rfl))
  · rw [exec_settleTimerExpiry, latchWeight_of_running hstate hsettle]
    exact congrArg _ (evaluateIfReady_setStation_reading (by exact hreads))
  · rw [exec_tagReadReport, endAttempt_of_attempt hstate hreads, readsAfter_tag hlo hhi]
    exact congrArg _ (evaluateIfReady_setStation_settling (by exact hsettle))
  · obtain ⟨report, hreport, hexec⟩ := hfails i hi
    rw [hexec, endAttempt_of_attempt hstate hreads, readsAfter_fails hreport, if_neg (Nat.not_lt.mpr hmade)]
    exact congrArg _ (evaluateIfReady_setStation_settling (by exact hsettle))
  · refine hevaluates _ { m with settle := .latched (min w 30000) } _ _ rfl hres ?_
    rw [exec_settleTimerExpiry, latchWeight_of_running hstate hsettle]
  · refine hevaluates _ { m with made := m.made + 1, reads := .done (.tag g broken) } _ _ hsettle rfl ?_
    rw [exec_tagReadReport, endAttempt_of_attempt hstate hreads, readsAfter_tag hlo hhi]
  · obtain ⟨report, hreport, hexec⟩ := hfails i hi
    refine hevaluates _ { m with made := m.made + 1, reads := .done .failed } _ _ hsettle rfl ?_
    rw [hexec, endAttempt_of_attempt hstate hreads, readsAfter_fails hreport, if_neg (Nat.not_lt.mpr hmade)]

end

section
-- One theorem after another: elaborated side by side, the whole text asks for more threads than the check has memory for.
set_option Elab.async false
/-! The chutes: credentials, sessions, turns of the drum, jams and the commands of the installation (R18 to R31). -/

namespace Sys2Proof.Machine

variable {s t : State} {l : LinkId} {tag n ms : Nat} {c : ChuteId} {d : DepositorId} {e : Depositor} {r : Record}
  {p : Bool}

/-! ## A credential presented -/

theorem exec_credentialPresented : exec (.credentialPresented c n) s = .next (presentCredential c n s) := rfl

theorem credentialLookup_of_active (hlo : 1 ≤ n) (hhi : n ≤ 9999999999) (hslot : slotOfCredential s n = some d)
    (he : s.roster.get d = some e) (hstate : e.state = .active) (hpermitted : e.permissions.getLsbD c.val = true)
    (hremaining : e.remaining ≠ 0) : credentialLookup s c n = .inl d := by
  have hrange : ¬ (n = 0 ∨ Config.maxCredential < n) := by
    rintro (h | h)
    · omega
    · exact Nat.not_lt.mpr hhi h
  have hactive : ¬ (e.state = .suspended) := hstate ▸ DepositorState.noConfusion
  have hpermit : ¬ ((!e.permissions.getLsbD c.val) = true) := by
    rw [hpermitted]
    exact Bool.false_ne_true
  simp only [credentialLookup, if_neg hrange, hslot, he, if_neg hactive, if_neg hpermit, if_neg hremaining]

theorem presentCredential_opens (hidle : (s.chutes.get c).state = .idle) (hopen : chuteClosed s c = false)
    (hlookup : credentialLookup s c n = .inl d) :
    presentCredential c n s =
      modifyChute c
        (fun k => { k with state := .session d (s.store.params.sessionIdle * 1000), hold := none }) s := by
  simp only [presentCredential, State.chute, hidle, hopen, hlookup, Bool.false_eq_true, if_false]
  rfl

theorem presentCredential_of_closed (hidle : (s.chutes.get c).state = .idle) (hclosed : chuteClosed s c = true) :
    presentCredential c n s = refuseCredential c .closed s := by
  simp only [presentCredential, State.chute, hidle, hclosed, if_true]

theorem presentCredential_of_busy (h : (s.chutes.get c).state ≠ .idle) :
    presentCredential c n s = refuseCredential c .busy s := by
  unfold presentCredential
  split
  next hidle => exact absurd hidle h
  next => rfl

theorem refuseCredential_eq {i : Indication} (hvalid : s.store.valid = true) :
    refuseCredential c i s =
      modifyChute c (fun k => { k with hold := some (i, 4000) })
        (countUp (fun k => { k with refusedCredentials := upTo65535 k.refusedCredentials }) s) :=
  if_pos hvalid

/-! ## The buttons and the timers of a session -/

theorem exec_drop : exec (.drop c) s = .next (pressDrop c s) := rfl

theorem exec_endPressed : exec (.endPressed c) s = .next (pressEnd c s) := rfl

theorem exec_idleTimerExpiry : exec (.idleTimerExpiry c) s = .next (expireIdle c s) := rfl

theorem exec_panelHoldExpiry :
    exec (.panelHoldExpiry c) s = .next (modifyChute c (fun k => { k with hold := none }) s) := rfl

theorem remainingOf_eq (he : s.roster.get d = some e) : remainingOf s d = e.remaining := by
  rw [remainingOf, he]
  rfl

theorem pressDrop_of_session (h : (s.chutes.get c).state = .session d ms) (he : s.roster.get d = some e) :
    pressDrop c s =
      if e.remaining = 0 then modifyChute c (Chute.entered .idle .limit) s
      else if 3 ≤ (s.chutes.get c).queue.length then modifyChute c (Chute.showing .wait) s
      else if freeRecords s = 0 then modifyChute c (Chute.showing .full) s
      else startTurn c d s := by
  simp only [pressDrop, State.chute, h, remainingOf_eq he]
  rfl

theorem freeRecords_eq_zero : freeRecords s = 0 ↔ 320 ≤ s.register.records.length + s.register.reservations := by
  rw [freeRecords, Config.maxRecords]
  omega

theorem pressEnd_of_session (h : (s.chutes.get c).state = .session d ms) :
    pressEnd c s = modifyChute c (Chute.entered .idle .ended) s := by
  simp only [pressEnd, State.chute, h]

theorem pressEnd_of_drum (h : (s.chutes.get c).state = .drum d ms p) :
    pressEnd c s = modifyChute c (fun k => { k with state := .drum d ms true }) s := by
  simp only [pressEnd, State.chute, h]

theorem expireIdle_of_session (h : (s.chutes.get c).state = .session d ms) :
    expireIdle c s = modifyChute c (Chute.entered .idle .ended) s := by
  simp only [expireIdle, State.chute, h]

/-! ## A record created -/

theorem exec_throatEntryReport : exec (.throatEntryReport c) s = .next (throatEntry c s) := rfl

theorem exec_jamReport : exec (.jamReport c) s = .next (jam c s) := rfl

theorem mem_createRecord {st : RecordState} :
    newRecord (issuedNumber s.register) d c s.clock st ∈ (createRecord c d st s).register.records :=
  mem_insertRecord.mpr (.inl rfl)

theorem createRecord_length {st : RecordState} :
    (createRecord c d st s).register.records.length = s.register.records.length + 1 :=
  insertRecord_perm.length_eq

theorem createRecord_roster {st : RecordState} (he : s.roster.get d = some e) :
    (createRecord c d st s).roster = s.roster.set d (some e.charged) := by
  rw [createRecord, modifyDepositor, he]
  rfl

theorem throatEntry_of_drum (h : (s.chutes.get c).state = .drum d ms p) : throatEntry c s = arrival c d p s := by
  simp only [throatEntry, State.chute, h]

theorem throatEntry_of_not_drum (h : ∀ d ms p, (s.chutes.get c).state ≠ .drum d ms p) :
    throatEntry c s = faultChute c false s := by
  unfold throatEntry
  split
  next d ms p hdrum => exact absurd hdrum (h d ms p)
  next => rfl

theorem jam_of_drum (h : (s.chutes.get c).state = .drum d ms p) :
    jam c s = raise .stranded (faultChute c false (createRecord c d .stranded s)) := by
  simp only [jam, State.chute, h]

theorem jam_of_not_drum (h : ∀ d ms p, (s.chutes.get c).state ≠ .drum d ms p) : jam c s = faultChute c false s := by
  unfold jam
  split
  next d ms p hdrum => exact absurd hdrum (h d ms p)
  next => rfl

/-- R25: the state in which the turn of the drum leaves a chute that received a bag. -/
def receivedChute (s : State) (d : DepositorId) (last : Bool) (k : Chute) : Chute :=
  if last then { k with state := .idle, hold := some (.receivedLast, 4000) }
  else { k with state := .session d (s.store.params.sessionIdle * 1000), hold := some (.received, 4000) }

/-- R25: the state after an arrival, but for the grant of the station. -/
def arrived (c : ChuteId) (d : DepositorId) (p : Bool) (s : State) : State :=
  modifyChute c
    (fun k => receivedChute s d (p || remainingOf (createRecord c d .waiting s) d == 0)
      { k with queue := k.queue ++ [issuedNumber s.register] })
    (createRecord c d .waiting s)

theorem turnEnded_received {last : Bool} :
    turnEnded c d last .receivedLast .received s = modifyChute c (receivedChute s d last) s := by
  cases last <;> rfl

theorem arrival_eq : arrival c d p s = arbitrate (arrived c d p s) := by
  rw [arrival, turnEnded_received, modifyChute, modifyChute, Table.get_set_self, Table.set_set]
  rfl

theorem arbitrate_records :
    (arbitrate s).register.records = s.register.records ∨
      ∃ m, (arbitrate s).register.records = modifyIn m (fun r => { r with state := .checking }) s.register.records := by
  by_cases hidle : s.station.state = .idle
  · cases hchosen : chosenRequester s with
    | none => exact .inl (by rw [arbitrate_of_none hchosen])
    | some src =>
      rw [arbitrate_of_chosen hidle hchosen]
      cases hqueue : queueOf s src with
      | nil => exact .inl (by rw [grant, hqueue])
      | cons m rest =>
        rw [grant_of_queue hqueue]
        exact .inr ⟨m, by cases src <;> rfl⟩
  · exact .inl (by rw [arbitrate_of_busy hidle])

theorem arbitrate_length : (arbitrate s).register.records.length = s.register.records.length := by
  rcases arbitrate_records (s := s) with h | ⟨m, h⟩
  · rw [h]
  · rw [h, modifyIn, List.length_map]

theorem arbitrate_mem (hr : r ∈ s.register.records) :
    r ∈ (arbitrate s).register.records ∨ { r with state := .checking } ∈ (arbitrate s).register.records := by
  rcases arbitrate_records (s := s) with h | ⟨m, h⟩
  · exact .inl (h ▸ hr)
  · rw [h]
    by_cases hm : r.number = m
    · exact .inr (List.mem_map.mpr ⟨r, hr, if_pos hm⟩)
    · exact .inl (List.mem_map.mpr ⟨r, hr, if_neg hm⟩)

theorem arrived_record :
    ∃ st, (st = .waiting ∨ st = .checking) ∧
      newRecord (issuedNumber s.register) d c s.clock st ∈ (arbitrate (arrived c d p s)).register.records := by
  have hmem : newRecord (issuedNumber s.register) d c s.clock .waiting ∈ (arrived c d p s).register.records :=
    mem_createRecord
  rcases arbitrate_mem hmem with h | h
  · exact ⟨.waiting, .inl rfl, h⟩
  · exact ⟨.checking, .inr rfl, h⟩

theorem arrived_chute :
    (arrived c d p s).chutes.get c =
      receivedChute s d (p || remainingOf (createRecord c d .waiting s) d == 0)
        { s.chutes.get c with queue := (s.chutes.get c).queue ++ [issuedNumber s.register] } := Table.get_set_self ..

/-- R25: whether the session ends with the bag received. -/
theorem last_iff (he : s.roster.get d = some e) :
    (p || remainingOf (createRecord c d .waiting s) d == 0) = true ↔ p = true ∨ e.remaining ≤ 1 := by
  have hcharged : remainingOf (createRecord c d .waiting s) d = e.remaining - 1 := by
    rw [remainingOf, createRecord_roster he, Table.get_set_self]
    rfl
  rw [hcharged, Bool.or_eq_true, beq_iff_eq]
  exact or_congr_right (by omega)

/-! ## The commands of the installation -/

theorem maskChute_eq :
    maskChute c s = modifyChute c (fun k => if k.masked then k else { k.closing with masked := true }) s := by
  unfold maskChute
  split
  next h =>
    have hsame : (if (s.chutes.get c).masked then s.chutes.get c
        else { (s.chutes.get c).closing with masked := true }) = s.chutes.get c := if_pos h
    rw [modifyChute, hsame, Table.set_get_self]
  next h =>
    rw [modifyChute, modifyChute, if_neg (by exact h)]

theorem closeIntake_eq :
    closeIntake s =
      { s with intakeClosed := true
               chutes := if s.intakeClosed then s.chutes else s.chutes.map Chute.closing } := by
  unfold closeIntake
  split
  next h => rw [← h]
  next h => rfl

theorem ownIntakeMask_val (hvalid : s.store.valid = true) : ownIntakeMask c.val s = .done .ok [] (maskChute c s) := by
  simp only [ownIntakeMask, index_val, if_neg (not_valid hvalid)]

theorem ownIntakeUnmask_val (hvalid : s.store.valid = true) :
    ownIntakeUnmask c.val s = .done .ok [] (modifyChute c (fun k => { k with masked := false }) s) := by
  simp only [ownIntakeUnmask, index_val, if_neg (not_valid hvalid)]

theorem maskChute_received {i : LinkId} : maskChute c (received i s) = received i (maskChute c s) := by
  rw [maskChute_eq, maskChute_eq]
  rfl

theorem closeIntake_received {i : LinkId} : closeIntake (received i s) = received i (closeIntake s) := by
  rw [closeIntake_eq, closeIntake_eq]
  rfl

/-! ### CLEAR CHUTE -/

/-- R30: a faulted chute cleared, its bags stranded. -/
def chuteCleared (c : ChuteId) (s : State) : State :=
  { s with
    register :=
      { s.register with
        records := s.register.records.map fun r => if r.number ∈ (s.chutes.get c).queue then r.stranded else r }
    chutes := s.chutes.set c { s.chutes.get c with state := .idle, hold := none, queue := [] } }

theorem clearFaulted_eq :
    clearFaulted c s =
      if (s.chutes.get c).queue = [] then chuteCleared c s else raise .stranded (chuteCleared c s) := by
  have hstranded := foldl_modifyRecord (f := Record.stranded) (fun _ => rfl) (fun _ => rfl) (s.chutes.get c).queue s
  rw [clearFaulted, State.chute, hstranded]
  simp only [List.isEmpty_iff]
  split <;> rfl

theorem clearFaulted_received {i : LinkId} : clearFaulted c (received i s) = received i (clearFaulted c s) := by
  rw [clearFaulted_eq, clearFaulted_eq, apply_ite (received i), ← raise_received]
  rfl

theorem find_stranded {ns : List Nat} {records : List Record} (hn : n ∈ ns) :
    (records.map fun r => if r.number ∈ ns then r.stranded else r).find? (fun x => x.number == n) =
      (records.find? fun x => x.number == n).map Record.stranded := by
  have hnumber : ((fun x : Record => x.number == n) ∘ fun r => if r.number ∈ ns then r.stranded else r) =
      fun x => x.number == n := by
    funext r
    simp only [Function.comp]
    split <;> rfl
  rw [List.find?_map, hnumber]
  cases hfind : records.find? fun x => x.number == n with
  | none => rfl
  | some r =>
    have hr : r.number = n := beq_iff_eq.mp (List.find?_some (p := fun x : Record => x.number == n) hfind)
    exact congrArg some (if_pos (hr ▸ hn))

theorem copiesOf_clearFaulted :
    copiesOf (clearFaulted c s) (s.chutes.get c).queue =
      (s.chutes.get c).queue.filterMap fun n =>
        (s.register.records.find? fun x => x.number == n).map fun r => .custody r.stranded := by
  have hrecords : (clearFaulted c s).register.records = (chuteCleared c s).register.records := by
    rw [clearFaulted_eq]
    split <;> rfl
  rw [copiesOf, List.map_filterMap]
  refine List.filterMap_congr fun n hn => ?_
  rw [State.find, hrecords, chuteCleared, find_stranded hn, Option.map_map]
  rfl

theorem ownClearChute_of_fault (hvalid : s.store.valid = true) (hheld : holds s l (hatchResource c) = true)
    (hfault : (s.chutes.get c).state = .fault) :
    ownClearChute l c.val s = .done .ok (copiesOf (clearFaulted c s) (s.chutes.get c).queue) (clearFaulted c s) := by
  have hclaimed : ¬ ((!holds s l (hatchResource c)) = true) := by
    rw [hheld]
    exact Bool.false_ne_true
  have hstate : ¬ ((s.chute c).state ≠ .fault) := fun h => h hfault
  simp only [ownClearChute, index_val, if_neg (not_valid hvalid), if_neg hclaimed, if_neg hstate]
  rfl

end Sys2Proof.Machine

open Sys2Proof Sys2Proof.Machine

/-- Settles O29: a credential opens a session, or is refused with its reason shown. -/
theorem credentialOpensSessionOrIsRefused : Obligations.CredentialOpensSessionOrIsRefused := by
  unfold Obligations.CredentialOpensSessionOrIsRefused
  refine ⟨fun c n d e s hidle hmasked hintake hclock hvalid hlo hhi he hn honly hstate hpermitted hremaining => ?_,
    fun c n s hvalid => ⟨fun hbusy => ?_, fun hidle hclosed => ?_⟩⟩
  · have hopen : chuteClosed s c = false := by
      rw [chuteClosed_eq, hmasked, hintake, hclock, hvalid]
      rfl
    have hslot : slotOfCredential s n = some d := slotOfCredential_of_only he hn honly
    rw [exec_credentialPresented, presentCredential_opens hidle hopen
      (credentialLookup_of_active hlo hhi hslot he hstate hpermitted hremaining)]
  · rw [exec_credentialPresented, presentCredential_of_busy hbusy, refuseCredential_eq hvalid]
  · have hshut : chuteClosed s c = true := by
      rw [chuteClosed_eq]
      rcases hclosed with h | h | h <;> simp [h]
    rw [exec_credentialPresented, presentCredential_of_closed hidle hshut, refuseCredential_eq hvalid]

/-- Settles O30: what the buttons and the timers of a session do. -/
theorem sessionButtonsAndTimers : Obligations.SessionButtonsAndTimers := by
  unfold Obligations.SessionButtonsAndTimers
  refine ⟨fun c d ms e s hsession he => ⟨fun hlimit => ?_, fun hmore hqueue => ?_,
      fun hmore hqueue => ⟨fun hfull => ?_, fun hroom => ?_⟩⟩,
    fun c s => ⟨fun d ms hsession => ⟨?_, ?_⟩, fun d ms p hdrum => ?_, exec_panelHoldExpiry⟩⟩
  · rw [exec_drop, pressDrop_of_session hsession he, if_pos hlimit]
    rfl
  · rw [exec_drop, pressDrop_of_session hsession he, if_neg hmore, if_pos hqueue]
    rfl
  · rw [exec_drop, pressDrop_of_session hsession he, if_neg hmore, if_neg (Nat.not_le.mpr hqueue),
      if_pos (freeRecords_eq_zero.mpr hfull)]
    rfl
  · rw [exec_drop, pressDrop_of_session hsession he, if_neg hmore, if_neg (Nat.not_le.mpr hqueue),
      if_neg (mt freeRecords_eq_zero.mp (Nat.not_le.mpr hroom))]
    rfl
  · rw [exec_endPressed, pressEnd_of_session hsession]
    rfl
  · rw [exec_idleTimerExpiry, expireIdle_of_session hsession]
    rfl
  · rw [exec_endPressed, pressEnd_of_drum hdrum]

/-- Settles O31: the bag that enters is a new record, charged to its depositor. -/
theorem throatEntryCreatesTheRecord : Obligations.ThroatEntryCreatesTheRecord := by
  unfold Obligations.ThroatEntryCreatesTheRecord
  intro c d ms p e s hdrum he
  have hexec : exec (.throatEntryReport c) s = .next (arbitrate (arrived c d p s)) := by
    rw [exec_throatEntryReport, throatEntry_of_drum hdrum, arrival_eq]
  obtain ⟨st, hst, hmem⟩ := arrived_record (s := s) (c := c) (d := d) (p := p)
  refine ⟨_, _, hexec, hmem, rfl, rfl, rfl, rfl, rfl, rfl, rfl, rfl, rfl, rfl, rfl, hst, ?_, ?_, ?_, ?_,
    fun hlast => ?_, fun hgoing hmore => ?_, fun i hi => ?_, ?_⟩
  · exact arbitrate_length.trans createRecord_length
  · rw [arbitrate_eq]
    rfl
  · rw [arbitrate_eq]
    rfl
  · rw [arbitrate_eq]
    exact createRecord_roster he
  · rw [arbitrate_chute, arrived_chute, receivedChute, if_pos ((last_iff he).mpr hlast)]
    exact ⟨rfl, rfl⟩
  · have hnot : ¬ (p = true ∨ e.remaining ≤ 1) := by
      rintro (h | h)
      · rw [hgoing] at h
        cases h
      · omega
    rw [arbitrate_chute, arrived_chute, receivedChute, if_neg (mt (last_iff he).mp hnot)]
    exact ⟨rfl, rfl⟩
  · rw [arbitrate_chute]
    exact congrArg (fun k : Chute => { k with queue := ((arbitrate (arrived c d p s)).chutes.get i).queue })
      (Table.get_set_ne _ _ hi)
  · rw [arbitrate_eq]
    rfl

/-- Settles O32: a jam strands the bag and faults the chute; an entry out of turn faults the chute. -/
theorem jamsAndStrayEntriesFaultTheChute : Obligations.JamsAndStrayEntriesFaultTheChute := by
  unfold Obligations.JamsAndStrayEntriesFaultTheChute
  refine ⟨fun c d ms p s hdrum => ?_, fun c s hdrum => ⟨?_, ?_⟩⟩
  · have hup : ((createRecord c d .stranded s).chutes.get c).state ≠ .fault := fun h =>
      ChuteState.noConfusion (hdrum.symm.trans h)
    have hexec : exec (.jamReport c) s =
        .next (raise .stranded (raise .chuteFault
          (modifyChute c (fun k => { k with state := .fault, hold := none }) (createRecord c d .stranded s)))) := by
      rw [exec_jamReport, jam_of_drum hdrum, faultChute_of_not_fault hup]
      rfl
    have hself : (modifyChute c (fun k => { k with state := .fault, hold := none })
        (createRecord c d .stranded s)).chutes.get c = { s.chutes.get c with state := .fault, hold := none } :=
      Table.get_set_self ..
    refine ⟨_, _, hexec, mem_createRecord, rfl, rfl, rfl, rfl, rfl, rfl, rfl, rfl, createRecord_length, rfl, ?_, ?_,
      rfl, rfl⟩
    · exact congrArg Chute.state hself
    · have hqueue := congrArg Chute.queue hself
      exact hqueue
  · rw [exec_throatEntryReport, throatEntry_of_not_drum hdrum]
    rfl
  · rw [exec_jamReport, jam_of_not_drum hdrum]
    rfl

/-- Settles O34: the installation's commands over the chutes, masked, closed and cleared. -/
theorem chuteCommandsMaskAndClear : Obligations.ChuteCommandsMaskAndClear := by
  unfold Obligations.ChuteCommandsMaskAndClear
  refine ⟨fun tag s hl hvalid => ?_, fun tag c k s hl hvalid hheld hfault => ?_⟩
  · intro closing
    have hclosing : Chute.closing = closing := by
      funext ⟨st, _, _, _⟩
      cases st <;> rfl
    refine ⟨fun c => ?_, ?_, fun c => ?_, ?_⟩
    · exact congrArg _ (takePlain_done (c := .intake) hl rfl (notLong rfl) Command.noConfusion
        (ownIntakeUnmask_val (s := received 1 s) hvalid))
    · exact congrArg _ (takePlain_done (c := .intake) hl rfl (notLong rfl) Command.noConfusion
        (if_neg (not_valid (s := received 1 s) hvalid)))
    · rw [← hclosing, ← maskChute_eq]
      exact congrArg _ (takePlain_done (c := .intake) hl rfl (notLong rfl) Command.noConfusion
        ((ownIntakeMask_val (s := received 1 s) hvalid).trans (by rw [maskChute_received])))
    · rw [← hclosing, ← closeIntake_eq]
      exact congrArg _ (takePlain_done (c := .intake) hl rfl (notLong rfl) Command.noConfusion
        ((if_neg (not_valid (s := received 1 s) hvalid)).trans (by rw [closeIntake_received])))
  · have hheld' : holds (received 1 s) 1 (hatchResource c) = true := holds_eq_true.mpr ⟨k, hheld⟩
    intro queued stranded cleared
    have hcleared : clearFaulted c s = if queued = [] then cleared else raise .stranded cleared := clearFaulted_eq
    rw [← hcleared]
    refine congrArg _ (takePlain_done (c := .clearChute) hl rfl (notLong rfl) Command.noConfusion ?_)
    rw [ownClearChute_of_fault (s := received 1 s) hvalid hheld' hfault, copiesOf_clearFaulted, clearFaulted_received]
    rfl

end

section
-- One theorem after another: elaborated side by side, the whole text asks for more threads than the check has memory for.
set_option Elab.async false
/-! The frames received: their characters, their check, and the command rows that they carry (R186 to R195). -/

namespace Sys2Proof.Machine

variable {s t u : State} {l : LinkId} {tag : Nat} {c : Command} {i : Instr} {b len : Byte}
  {taken bs covered check body : List Byte} {r : Receiver}

/-! ## The rows that a body decodes to -/

/-- Every row that a parser gives has a property. -/
def Rows (P : Instr → Prop) (parsed : Option (Instr × List Byte)) : Prop := ∀ i rest, parsed = some (i, rest) → P i

section
variable {P : Instr → Prop} {α : Type}

theorem Rows.bind {x : Option α} {f : α → Option (Instr × List Byte)} (h : ∀ a, Rows P (f a)) : Rows P (x >>= f) := by
  intro i rest hsome
  obtain ⟨a, _, ha⟩ := Option.bind_eq_some_iff.mp hsome
  exact h a i rest ha

theorem Rows.some {rest : List Byte} (h : P i) : Rows P (some (i, rest)) := by
  rintro j rest' hsome
  cases hsome
  exact h

theorem Rows.pure {rest : List Byte} (h : P i) : Rows P (pure (i, rest)) := Rows.some h

theorem Rows.none : Rows P none := by
  rintro i rest hsome
  cases hsome

theorem Rows.ite {p : Prop} [Decidable p] {x y : Option (Instr × List Byte)} (hx : Rows P x) (hy : Rows P y) :
    Rows P (if p then x else y) := by
  split
  · exact hx
  · exact hy

theorem Rows.readWhole {parsed : Option (Instr × List Byte)} (h : Rows P parsed) (hi : readWhole parsed = .command i) :
    P i := by
  unfold Sys2Proof.readWhole at hi
  split at hi
  · cases hi
  next j rest =>
    split at hi
    · cases hi
      exact h i rest rfl
    · cases hi

theorem Rows.oneNum {n : Nat} {make : Nat → Instr} (h : ∀ v, P (make v)) (hi : oneNum n make body = .command i) : P i :=
  Rows.readWhole (.bind fun _ => .pure (h _)) hi

theorem Rows.numOrSelector {n : Nat} {make : Option Nat → Instr} (h : ∀ v, P (make v))
    (hi : numOrSelector n make body = .command i) : P i :=
  Rows.readWhole (.bind fun _ => .ite (.bind fun _ => .pure (h _)) (.ite (.pure (h _)) .none)) hi

end

/-- R195: the row that a command's body decodes to is that command's, on the link that received it. -/
theorem commandOf_of_decodeBody (h : decodeBody c l tag body = .command i) : commandOf i = some (l, tag, c) := by
  cases c with
  | collect | discard | readStation | clearLinkCounters | readNotices | reportStop | initialiseStore | clearStation
  | manifestOpen | manifestClose | manifestAbandon =>
    exact Rows.readWhole (P := fun i => commandOf i = some (l, tag, _)) (.some rfl) h
  | readRecord | noticeEnable | setForcedError | safeState | relinquish | cosign | claim | yieldResource | cancelAdvice
  | removeDepositor | voidRecord | purge | reEnter | clearChute | openDoor | inventory | manifestAdd | manifestDrop =>
    exact Rows.oneNum (P := fun i => commandOf i = some (l, tag, _)) (fun _ => rfl) h
  | readCompartment | readChute | readDepositor | retain =>
    exact Rows.numOrSelector (P := fun i => commandOf i = some (l, tag, _)) (fun _ => rfl) h
  | setReserve | handOut | loadAdvice | clearReason =>
    exact Rows.readWhole (P := fun i => commandOf i = some (l, tag, _)) (.bind fun _ => .bind fun _ => .pure rfl) h
  | reportProgram | setCompartment | countResult =>
    exact Rows.readWhole (P := fun i => commandOf i = some (l, tag, _))
      (.bind fun _ => .bind fun _ => .bind fun _ => .pure rfl) h
  | listRecords =>
    exact Rows.readWhole (P := fun i => commandOf i = some (l, tag, _))
      (.bind fun _ => .bind fun _ => .bind fun _ => .bind fun _ => .pure rfl) h
  | setRule =>
    exact Rows.readWhole (P := fun i => commandOf i = some (l, tag, _))
      (.bind fun _ => .bind fun _ => .bind fun _ => .bind fun _ => .bind fun _ => .pure rfl) h
  | setDepositor =>
    exact Rows.readWhole (P := fun i => commandOf i = some (l, tag, _))
      (.bind fun _ => .bind fun _ => .bind fun _ => .bind fun _ => .bind fun _ => .bind fun _ => .bind fun _ =>
        .pure rfl) h
  | readAdvice =>
    exact Rows.readWhole (P := fun i => commandOf i = some (l, tag, _))
      (.bind fun _ => .ite (.bind fun _ => .pure rfl) (.ite (.bind fun _ => .pure rfl) .none)) h
  | readCounters =>
    exact Rows.readWhole (P := fun i => commandOf i = some (l, tag, _))
      (.bind fun _ => .ite (.pure rfl) (.ite (.bind fun _ => .pure rfl) .none)) h
  | setClock =>
    exact Rows.readWhole (P := fun i => commandOf i = some (l, tag, _))
      (.bind fun _ => .ite (.bind fun _ => .bind fun _ => .pure rfl) (.ite (.pure rfl) .none)) h
  | setWindow =>
    exact Rows.readWhole (P := fun i => commandOf i = some (l, tag, _))
      (.bind fun _ => .bind fun _ => .bind fun _ => .ite (.bind fun _ => .pure rfl) (.ite (.pure rfl) .none)) h
  | setParameter =>
    exact Rows.readWhole (P := fun i => commandOf i = some (l, tag, _))
      (.bind fun _ => .ite (.bind fun _ => .ite (.bind fun _ => .pure rfl) (.ite .none (.pure rfl)))
        (.ite (.pure rfl) .none)) h
  | intake =>
    rw [decodeBody] at h
    split at h
    · cases h
    · split at h
      · exact Rows.oneNum (P := fun i => commandOf i = some (l, tag, _)) (fun _ => rfl) h
      · split at h
        · exact Rows.oneNum (P := fun i => commandOf i = some (l, tag, _)) (fun _ => rfl) h
        · split at h
          · exact Rows.readWhole (P := fun i => commandOf i = some (l, tag, _)) (.some rfl) h
          · split at h
            · exact Rows.readWhole (P := fun i => commandOf i = some (l, tag, _)) (.some rfl) h
            · cases h

/-! ## A command runs alike, whatever its frame left in the receiver -/

theorem setReceiver_setReceiver {r r' : Receiver} : setReceiver l r' (setReceiver l r s) = setReceiver l r' s :=
  modifyLink_modifyLink

theorem received_setReceiver : received l (setReceiver l r s) = received l s := modifyLink_modifyLink

theorem setReceiver_link : (setReceiver l r s).links.get l = { s.links.get l with receiver := r } := modifyLink_get_self

theorem setReceiver_hears (hpresent : (s.links.get l).present = true) (hr : r ≠ .lineLow) :
    ((setReceiver l r s).links.get l).hears = true := by
  rw [setReceiver_link, Link.hears, hpresent, bne_iff_ne.mpr hr]
  rfl

theorem takeCommand_congr {role form : Bool} {owner : State → Answer} (hs : (s.links.get l).hears = true)
    (hu : (u.links.get l).hears = true) (h : received l u = received l s) :
    takeCommand l tag c role form owner u = takeCommand l tag c role form owner s := by
  have h' : modifyLink l Link.receivedWhole u = modifyLink l Link.receivedWhole s := h
  rw [takeCommand, takeCommand, State.link, State.link, if_pos hu, if_pos hs, h']

theorem takeResult_setReceiver {act : Link → Link} (hs : (s.links.get l).hears = true)
    (hu : ((setReceiver l r s).links.get l).hears = true) :
    takeResult l tag c act (setReceiver l r s) = takeResult l tag c act s := by
  simp only [takeResult, State.link, hs, hu, if_true]
  exact modifyLink_modifyLink

theorem eq_collect_or_discard (hi : commandOf i = some (l, tag, c)) (hc : c = .collect ∨ c = .discard) :
    i = .collect l tag ∧ c = .collect ∨ i = .discard l tag ∧ c = .discard := by
  cases i <;> cases hi <;> first | exact .inl ⟨rfl, rfl⟩ | exact .inr ⟨rfl, rfl⟩ | simp at hc

/-- R187: a command row takes its link's receiver back to hunting, wherever its frame left it. -/
theorem exec_setReceiver (hi : commandOf i = some (l, tag, c)) (hs : (s.links.get l).hears = true)
    (hu : ((setReceiver l r s).links.get l).hears = true) : exec i (setReceiver l r s) = exec i s := by
  by_cases hc : c = .collect ∨ c = .discard
  · rcases eq_collect_or_discard hi hc with ⟨rfl, _⟩ | ⟨rfl, _⟩
    · rw [exec_collect, exec_collect, takeResult_setReceiver hs hu]
    · rw [exec_discard, exec_discard, takeResult_setReceiver hs hu]
  · rw [not_or] at hc
    rw [exec_command hi hc.1 hc.2, exec_command hi hc.1 hc.2, takeCommand_congr hs hu received_setReceiver]

/-! ## The characters of one frame -/

theorem exec_frameReceived : exec (.frameReceived l bs) s = takeCharacters l bs s := rfl

theorem takeCharacters_cons (h : takeCharacter l b s = .next t) :
    takeCharacters l (b :: bs) s = takeCharacters l bs t := by
  rw [takeCharacters, h]

theorem takeCharacter_start (hpresent : (s.links.get l).present = true)
    (hhunting : (s.links.get l).receiver = .hunting) :
    takeCharacter l 0xA5#8 s = .next (setReceiver l (.inFrame []) s) := by
  have hears : (s.links.get l).hears = true := by
    rw [Link.hears, hpresent, hhunting]
    rfl
  simp only [takeCharacter, State.link, hears, hhunting, if_true]

theorem takeCharacter_inFrame (hpresent : (s.links.get l).present = true) :
    takeCharacter l b (setReceiver l (.inFrame taken) s) =
      takeInFrame l taken b (setReceiver l (.inFrame taken) s) := by
  have hears := setReceiver_hears (l := l) (r := .inFrame taken) hpresent Receiver.noConfusion
  rw [takeCharacter, State.link, if_pos hears, setReceiver_link]

theorem takeInFrame_of_short (h : (len :: taken).length + 1 < frameLength len) :
    takeInFrame l (len :: taken) b (setReceiver l (.inFrame (len :: taken)) s) =
      .next (setReceiver l (.inFrame (len :: taken ++ [b])) s) := by
  have hne : ¬ ((len :: taken ++ [b]).length = frameLength len) := by
    rw [List.length_append, List.length_singleton]
    omega
  rw [takeInFrame, if_neg hne, setReceiver_setReceiver]

theorem takeInFrame_of_last (h : (len :: taken).length + 1 = frameLength len) :
    takeInFrame l (len :: taken) b (setReceiver l (.inFrame (len :: taken)) s) =
      completeFrame l (len :: taken ++ [b]) (setReceiver l (.inFrame (len :: taken)) s) := by
  have heq : (len :: taken ++ [b]).length = frameLength len := by
    rw [List.length_append, List.length_singleton]
    exact h
  rw [takeInFrame, if_pos heq]

/-- R187: the rest of a frame, taken in to its last character. -/
theorem takeCharacters_rest (hpresent : (s.links.get l).present = true) (hbs : bs ≠ [])
    (hlength : (len :: taken).length + bs.length = frameLength len)
    (hdone : completeFrame l (len :: taken ++ bs)
      (setReceiver l (.inFrame (len :: taken ++ bs.dropLast)) s) = .next t) :
    takeCharacters l bs (setReceiver l (.inFrame (len :: taken)) s) = .next t := by
  induction bs generalizing taken with
  | nil => exact absurd rfl hbs
  | cons b rest ih =>
    have hcount : (len :: taken).length + (rest.length + 1) = frameLength len := hlength
    cases rest with
    | nil =>
      rw [List.dropLast_singleton, List.append_nil] at hdone
      have hlast := (takeCharacter_inFrame hpresent).trans (takeInFrame_of_last (b := b) (s := s) hlength)
      rw [takeCharacters_cons (hlast.trans hdone), takeCharacters]
    | cons b' rest =>
      have hmore : 0 < (b' :: rest).length := Nat.succ_pos _
      have hshort : (len :: taken).length + 1 < frameLength len := by omega
      rw [takeCharacters_cons ((takeCharacter_inFrame hpresent).trans (takeInFrame_of_short hshort))]
      refine ih (taken := taken ++ [b]) (List.cons_ne_nil b' rest) ?_ ?_
      · rw [← List.cons_append, List.length_append, List.length_singleton]
        omega
      · rw [List.dropLast_cons_of_ne_nil (List.cons_ne_nil b' rest)] at hdone
        simpa using hdone

/-- R186, R187: a frame whose length is in range, received from its first character to its last. -/
theorem takeCharacters_frame (hpresent : (s.links.get l).present = true)
    (hhunting : (s.links.get l).receiver = .hunting) (hlen : len.toNat ≤ 240) (hbs : bs.length = 5 + 2 * len.toNat)
    (hdone : completeFrame l (len :: bs) (setReceiver l (.inFrame (len :: bs.dropLast)) s) = .next t) :
    takeCharacters l (0xA5#8 :: len :: bs) s = .next t := by
  have hlength : takeInFrame l [] len (setReceiver l (.inFrame []) s) = .next (setReceiver l (.inFrame [len]) s) := by
    rw [takeInFrame, if_neg (Nat.not_lt.mpr hlen), setReceiver_setReceiver]
  rw [takeCharacters_cons (takeCharacter_start hpresent hhunting),
    takeCharacters_cons ((takeCharacter_inFrame hpresent).trans hlength)]
  refine takeCharacters_rest hpresent ?_ ?_ hdone
  · rintro rfl
    rw [List.length_nil] at hbs
    omega
  · rw [List.length_singleton, frameLength, hbs]
    omega

/-! ## The check of a frame -/

theorem checked_parts (hcheck : check.length = 2) :
    ((len :: (covered ++ check)).drop 1).take ((len :: (covered ++ check)).length - 3) = covered ∧
      (len :: (covered ++ check)).drop ((len :: (covered ++ check)).length - 2) = check := by
  have htake : (len :: (covered ++ check)).length - 3 = covered.length := by
    rw [List.length_cons, List.length_append, hcheck]
    omega
  have hdrop : (len :: (covered ++ check)).length - 2 = covered.length + 1 := by
    rw [List.length_cons, List.length_append, hcheck]
    omega
  rw [htake, hdrop, List.drop_one, List.tail_cons, List.take_left, List.drop_succ_cons, List.drop_left]
  exact ⟨rfl, rfl⟩

theorem completeFrame_of_checked {kind tag code : Byte} (hcovered : covered = kind :: tag :: code :: body)
    (hcheck : check = bytesOf 2 (crc16 covered).toNat) :
    completeFrame l (len :: (covered ++ check)) s = takeFrame l kind.toNat tag.toNat code.toNat body s := by
  have hlength : check.length = 2 := by
    rw [hcheck]
    rfl
  obtain ⟨htake, hdrop⟩ := checked_parts (len := len) (covered := covered) hlength
  rw [completeFrame, htake, hdrop, if_pos hcheck.symm, hcovered]

theorem completeFrame_of_failed (hlength : check.length = 2) (hcheck : check ≠ bytesOf 2 (crc16 covered).toNat) :
    completeFrame l (len :: (covered ++ check)) s = .next (modifyLink l Link.checkFailed s) := by
  obtain ⟨htake, hdrop⟩ := checked_parts (len := len) (covered := covered) hlength
  rw [completeFrame, htake, hdrop, if_neg hcheck.symm]

theorem commandOfCode_code : commandOfCode (BitVec.ofNat 8 c.code).toNat = some c := by
  cases c <;> rfl

theorem takeFrame_of_command (h : decodeBody c l tag body = .command i) :
    takeFrame l (0x01#8).toNat tag (BitVec.ofNat 8 c.code).toNat body s = exec i s := by
  have hrow : (commandOf i).isSome = true := by
    rw [commandOf_of_decodeBody h]
    rfl
  have hcode : (if (0x01#8 : Byte).toNat = 1 then commandOfCode (BitVec.ofNat 8 c.code).toNat else none) = some c :=
    (if_pos rfl).trans commandOfCode_code
  rw [takeFrame, hcode]
  dsimp only
  rw [h]
  dsimp only
  rw [runCommand_eq, if_pos hrow]

end Sys2Proof.Machine

open Sys2Proof Sys2Proof.Machine

/-- Settles O4: a checked frame runs as its command, and a frame that fails its check is counted. -/
theorem framesAreCheckedAndRun : Obligations.FramesAreCheckedAndRun := by
  unfold Obligations.FramesAreCheckedAndRun
  intro l s hpresent hhunting
  refine ⟨fun c tag body i heven hmost hdecode => ?_, ?_⟩
  · obtain ⟨t, ht⟩ := exec_next i s
    refine ⟨t, ?_, ht⟩
    obtain ⟨covered, hcovered⟩ : ∃ covered, covered = 0x01#8 :: tag :: BitVec.ofNat 8 c.code :: body := ⟨_, rfl⟩
    have hframe : commandFrame c tag body =
        0xA5#8 :: BitVec.ofNat 8 (body.length / 2) :: (covered ++ bytesOf 2 (crc16 covered).toNat) := by
      rw [hcovered]
      rfl
    have hlen : (BitVec.ofNat 8 (body.length / 2)).toNat = body.length / 2 := by
      rw [BitVec.toNat_ofNat]
      exact Nat.mod_eq_of_lt (by omega)
    have hlength : (covered ++ bytesOf 2 (crc16 covered).toNat).length =
        5 + 2 * (BitVec.ofNat 8 (body.length / 2)).toNat := by
      have htwo : (bytesOf 2 (crc16 covered).toNat).length = 2 := rfl
      rw [List.length_append, htwo, hcovered, hlen, List.length_cons, List.length_cons, List.length_cons]
      omega
    have hears : (s.links.get l).hears = true := by
      rw [Link.hears, hpresent, hhunting]
      rfl
    rw [exec_frameReceived, hframe]
    refine takeCharacters_frame hpresent hhunting (by omega) hlength ?_
    rw [completeFrame_of_checked hcovered rfl, takeFrame_of_command hdecode,
      exec_setReceiver (commandOf_of_decodeBody hdecode) hears (setReceiver_hears hpresent Receiver.noConfusion), ht]
  · intro bad
    have hbad : ∀ r, modifyLink l Link.checkFailed (setReceiver l r s) = bad := fun r => by
      rw [setReceiver, modifyLink_modifyLink]
      refine modifyLink_of_eq ?_
      rw [Link.checkFailed, ← hhunting]
      rfl
    refine ⟨fun len hlen => ?_, fun len covered check hlen hcovered hlength hcheck => ?_⟩
    · have hlength : takeInFrame l [] len (setReceiver l (.inFrame []) s) = .next bad := by
        rw [takeInFrame, if_pos hlen, hbad]
      rw [exec_frameReceived, takeCharacters_cons (takeCharacter_start hpresent hhunting),
        takeCharacters_cons ((takeCharacter_inFrame hpresent).trans hlength), takeCharacters]
    · rw [exec_frameReceived]
      refine takeCharacters_frame (bs := covered ++ check) hpresent hhunting hlen ?_ ?_
      · rw [List.length_append, hcovered, hlength]
        omega
      · rw [completeFrame_of_failed hlength hcheck, hbad]

end
